-- ==== Sys2Proof/Word.lean ====
section
/-! DEFINITION. The word types of the SIRC-1: the 16-bit data word, the 24-bit word address, the 32-bit instruction. -/

namespace Sys2Proof

/-- The data word and the width of every register: 16 bits (00_scope.md R5, 10_state.md R20). -/
abbrev Word := BitVec 16

/-- A byte as the memory list holds it; the machine itself never addresses one (20_memory.md R70). -/
abbrev Byte := BitVec 8

/-- A 24-bit word address (20_memory.md R70, R71). -/
abbrev Addr := BitVec 24

/-- A 32-bit instruction word, bit 31 the top bit of the opcode (00_scope.md R7, 30_encoding.md R101). -/
abbrev InstrWord := BitVec 32

end Sys2Proof
end

