-- ==== Sys2Proof/Syntax.lean ====
section
/-! DEFINITION. The instruction set as syntax: register names, conditions, selector fields, one record per format, and
the one inductive `Instr` with a constructor for every row of spec/opcode_table.json. -/

namespace Sys2Proof

/-- The sixteen registers in the order of their ids 0x0 to 0xF (10_state.md R21). -/
inductive Reg where
  | sr | r1 | r2 | r3 | r4 | r5 | r6 | r7
  | lh | ll | ah | al | sh | sl | ph | pl
  deriving DecidableEq, Repr

/-- The four address register pairs in the order of the AF pair selector (30_encoding.md R107). -/
inductive Pair where
  | l | a | s | p
  deriving DecidableEq, Repr

/-- The sixteen conditions in the order of their codes 0x0 to 0xF (30_encoding.md R108). -/
inductive Cond where
  | al | eq | ne | cs | cc | ns | nc | os | oc | hi | lo | ge | lt | gt | le | nv
  deriving DecidableEq, Repr

/-- The AF field of an ALU opcode, codes 00 to 11 (30_encoding.md R107): the source of the flag update. -/
inductive StatusSel where
  /-- 00, `[N]`: the flags are not updated. -/
  | noUpdate
  /-- 01, `[A]`: the flags come from the ALU operation. -/
  | fromAlu
  /-- 10, `[S]`: the flags come from the shifter. -/
  | fromShift
  /-- 11: reserved. -/
  | reserved
  deriving DecidableEq, Repr

/-- The ST field, codes 000 to 111 (30_encoding.md R109). -/
inductive ShiftType where
  /-- 000, no shift. -/
  | nul
  | lsl | lsr | asl | asr | rtl | rtr
  /-- 111: reserved. -/
  | reserved
  deriving DecidableEq, Repr

/-- The SO and SA fields (30_encoding.md R109): a literal count (SO = 0) or the register that holds it (SO = 1). -/
inductive ShiftAmount where
  | literal (n : BitVec 4)
  | register (r : Reg)
  deriving DecidableEq, Repr

/-- The shift fields SO, ST, SA of the Short Immediate and Register formats. -/
structure Shift where
  type   : ShiftType
  amount : ShiftAmount
  deriving DecidableEq, Repr

/-- Immediate format with AF as status selector: the ALU opcodes 0x00 to 0x0E and COPI 0x0F (30_encoding.md R103). -/
structure ImmAlu where
  reg  : Reg
  imm  : Word
  sel  : StatusSel
  cond : Cond
  deriving DecidableEq, Repr

/-- Immediate format with AF as pair selector: the even opcodes 0x10 to 0x1E (30_encoding.md R103, R106). -/
structure ImmMem where
  reg  : Reg
  imm  : Word
  pair : Pair
  cond : Cond
  deriving DecidableEq, Repr

/-- Short Immediate format: the opcodes 0x20 to 0x2F (30_encoding.md R104). -/
structure ShortAlu where
  reg   : Reg
  imm8  : BitVec 8
  shift : Shift
  sel   : StatusSel
  cond  : Cond
  deriving DecidableEq, Repr

/-- Register format with AF as status selector: the opcodes 0x30 to 0x3F (30_encoding.md R105). -/
structure RegAlu where
  r1    : Reg
  r2    : Reg
  r3    : Reg
  shift : Shift
  sel   : StatusSel
  cond  : Cond
  deriving DecidableEq, Repr

/-- Register format with AF as pair selector: the odd opcodes 0x11 to 0x1F (30_encoding.md R105, R106). -/
structure RegMem where
  r1    : Reg
  r2    : Reg
  r3    : Reg
  shift : Shift
  pair  : Pair
  cond  : Cond
  deriving DecidableEq, Repr

/-- A COPI whose call word names an operation of the exception unit (30_encoding.md R116): the operation is the
constructor, `par` the parameter byte (call word bits 7:0). Reg and AF are kept and ignored. -/
structure UnitCall where
  reg  : Reg
  par  : BitVec 8
  sel  : StatusSel
  cond : Cond
  deriving DecidableEq, Repr

/-- LJMP with an immediate offset (45_meta_instructions.md R322). -/
structure JumpOff where
  imm  : Word
  pair : Pair
  cond : Cond
  deriving DecidableEq, Repr

/-- LJMP with a register offset (45_meta_instructions.md R322). -/
structure JumpIdx where
  r2    : Reg
  r3    : Reg
  shift : Shift
  pair  : Pair
  cond  : Cond
  deriving DecidableEq, Repr

/-- SHFT and SHFI: the fields ADDI[S] #0 leaves free (45_meta_instructions.md R330, R331). -/
structure ShiftOne where
  reg   : Reg
  shift : Shift
  cond  : Cond
  deriving DecidableEq, Repr

/-- SHFR: the fields ADDR[S] leaves free (45_meta_instructions.md R332). -/
structure ShiftReg where
  r1    : Reg
  r2    : Reg
  r3    : Reg
  shift : Shift
  cond  : Cond
  deriving DecidableEq, Repr

/-- One constructor per row of spec/opcode_table.json. In the order of the 64 opcodes (30_encoding.md R113); then the six
exception-unit calls, which the table lists as rows (44_coprocessor.md R295 to R300); then the six assembler names
(45_meta_instructions.md). `Off` marks an immediate offset, `Idx` a register offset, `Short` the Short Immediate format. -/
inductive Instr where
  -- 0x00 to 0x0F, Immediate
  | addi (f : ImmAlu)
  | adci (f : ImmAlu)
  | subi (f : ImmAlu)
  | sbci (f : ImmAlu)
  | andi (f : ImmAlu)
  | orri (f : ImmAlu)
  | xori (f : ImmAlu)
  | loadImm (f : ImmAlu)
  | undoc08 (f : ImmAlu)
  | undoc09 (f : ImmAlu)
  | cmpi (f : ImmAlu)
  | undoc0B (f : ImmAlu)
  | tsai (f : ImmAlu)
  | undoc0D (f : ImmAlu)
  | tsxi (f : ImmAlu)
  | copi (f : ImmAlu)
  -- 0x10 to 0x1F, memory and control
  | storOff (f : ImmMem)
  | storIdx (f : RegMem)
  | storPreOff (f : ImmMem)
  | storPreIdx (f : RegMem)
  | loadOff (f : ImmMem)
  | loadIdx (f : RegMem)
  | loadPostOff (f : ImmMem)
  | loadPostIdx (f : RegMem)
  | ldeaOff (f : ImmMem)
  | ldeaIdx (f : RegMem)
  | branOff (f : ImmMem)
  | branIdx (f : RegMem)
  | ljsrOff (f : ImmMem)
  | ljsrIdx (f : RegMem)
  | brsrOff (f : ImmMem)
  | brsrIdx (f : RegMem)
  -- 0x20 to 0x2F, Short Immediate
  | addiShort (f : ShortAlu)
  | adciShort (f : ShortAlu)
  | subiShort (f : ShortAlu)
  | sbciShort (f : ShortAlu)
  | andiShort (f : ShortAlu)
  | orriShort (f : ShortAlu)
  | xoriShort (f : ShortAlu)
  | loadShort (f : ShortAlu)
  | undoc28 (f : ShortAlu)
  | undoc29 (f : ShortAlu)
  | cmpiShort (f : ShortAlu)
  | undoc2B (f : ShortAlu)
  | tsaiShort (f : ShortAlu)
  | undoc2D (f : ShortAlu)
  | tsxiShort (f : ShortAlu)
  | copiShort (f : ShortAlu)
  -- 0x30 to 0x3F, Register
  | addr (f : RegAlu)
  | adcr (f : RegAlu)
  | subr (f : RegAlu)
  | sbcr (f : RegAlu)
  | andr (f : RegAlu)
  | orrr (f : RegAlu)
  | xorr (f : RegAlu)
  | loadReg (f : RegAlu)
  | undoc38 (f : RegAlu)
  | undoc39 (f : RegAlu)
  | cmpr (f : RegAlu)
  | undoc3B (f : RegAlu)
  | tsar (f : RegAlu)
  | undoc3D (f : RegAlu)
  | tsxr (f : RegAlu)
  | copr (f : RegAlu)
  -- exception-unit calls, opcode 0x0F with the call words of 30_encoding.md R116
  | excp (f : UnitCall)
  | wait (f : UnitCall)
  | rete (f : UnitCall)
  | rset (f : UnitCall)
  | etfr (f : UnitCall)
  | ettr (f : UnitCall)
  -- assembler names for words of other rows
  | noop
  | rets
  | ljmpOff (f : JumpOff)
  | ljmpIdx (f : JumpIdx)
  | shft (f : ShiftOne)
  | shfi (f : ShiftOne)
  | shfr (f : ShiftReg)
  deriving DecidableEq, Repr

end Sys2Proof
end

