-- ==== Sys2Proof/WellFormed.lean ====
section
/-! DEFINITION. Which terms of `Instr` are the ones the decoder gives. Every field value of every format is an encoding
(30_encoding.md R120: every 32-bit word decodes), so the only ill-formed terms are second spellings: a core instruction
whose word carries a name of its own in spec/opcode_table.json (NOOP, RETS, LJMP, SHFT, SHFI, SHFR and the exception-unit
calls). Log 33. -/

namespace Sys2Proof

/-- The call word is one of the six the exception unit gives a name (30_encoding.md R116). -/
def isNamedCall (w : Word) : Bool :=
  let hi := w.extractLsb' 8 8
  hi == 0x11#8 || hi == 0x19#8 || hi == 0x1A#8 || hi == 0x1B#8 || hi == 0x1C#8 || hi == 0x1D#8

/-- The shift fields name their count by a register (SO = 1). -/
def ShiftAmount.isRegister : ShiftAmount → Bool
  | .literal _ => false
  | .register _ => true

/-- The instruction is the name under which its word decodes. -/
def wellFormed : Instr → Bool
  | .addi f => !(f == { reg := .sr, imm := 0, sel := .noUpdate, cond := .al : ImmAlu })
  | .copi f => !(isNamedCall f.imm)
  | .ldeaOff f => !(f.reg == .ph)
  | .ldeaIdx f => !(f.r1 == .ph)
  | .ljmpOff f => !(f == { imm := 0, pair := .l, cond := .al : JumpOff })
  | .addiShort f => !(f.imm8 == 0 && f.sel == .fromShift)
  | .addr f => !(f.sel == .fromShift)
  | .shft f => f.shift.amount.isRegister
  | .shfi f => !f.shift.amount.isRegister
  | .adci _ | .subi _ | .sbci _ | .andi _ | .orri _ | .xori _ | .loadImm _ | .undoc08 _ | .undoc09 _ | .cmpi _
  | .undoc0B _ | .tsai _ | .undoc0D _ | .tsxi _ => true
  | .storOff _ | .storIdx _ | .storPreOff _ | .storPreIdx _ | .loadOff _ | .loadIdx _ | .loadPostOff _
  | .loadPostIdx _ | .branOff _ | .branIdx _ | .ljsrOff _ | .ljsrIdx _ | .brsrOff _ | .brsrIdx _ => true
  | .adciShort _ | .subiShort _ | .sbciShort _ | .andiShort _ | .orriShort _ | .xoriShort _ | .loadShort _
  | .undoc28 _ | .undoc29 _ | .cmpiShort _ | .undoc2B _ | .tsaiShort _ | .undoc2D _ | .tsxiShort _
  | .copiShort _ => true
  | .adcr _ | .subr _ | .sbcr _ | .andr _ | .orrr _ | .xorr _ | .loadReg _ | .undoc38 _ | .undoc39 _ | .cmpr _
  | .undoc3B _ | .tsar _ | .undoc3D _ | .tsxr _ | .copr _ => true
  | .excp _ | .wait _ | .rete _ | .rset _ | .etfr _ | .ettr _ => true
  | .noop | .rets | .ljmpIdx _ | .shfr _ => true

end Sys2Proof
end

