-- ==== Sys2Proof/Decode.lean ====
section
/-! DEFINITION. The decoder, total on any bytes, and after it the encoder, both written from the formats of
30_encoding.md R103 to R105 and the opcode map of R113. -/

namespace Sys2Proof

/-! ### Field codes -/

/-- The register id (10_state.md R21). -/
def Reg.bits : Reg → BitVec 4
  | .sr => 0x0#4
  | .r1 => 0x1#4
  | .r2 => 0x2#4
  | .r3 => 0x3#4
  | .r4 => 0x4#4
  | .r5 => 0x5#4
  | .r6 => 0x6#4
  | .r7 => 0x7#4
  | .lh => 0x8#4
  | .ll => 0x9#4
  | .ah => 0xA#4
  | .al => 0xB#4
  | .sh => 0xC#4
  | .sl => 0xD#4
  | .ph => 0xE#4
  | .pl => 0xF#4

/-- The register of an id (10_state.md R21). -/
def Reg.ofBits (b : BitVec 4) : Reg :=
  match b.toNat with
  | 0 => .sr
  | 1 => .r1
  | 2 => .r2
  | 3 => .r3
  | 4 => .r4
  | 5 => .r5
  | 6 => .r6
  | 7 => .r7
  | 8 => .lh
  | 9 => .ll
  | 10 => .ah
  | 11 => .al
  | 12 => .sh
  | 13 => .sl
  | 14 => .ph
  | _ => .pl

/-- The condition code (30_encoding.md R108). -/
def Cond.bits : Cond → BitVec 4
  | .al => 0x0#4
  | .eq => 0x1#4
  | .ne => 0x2#4
  | .cs => 0x3#4
  | .cc => 0x4#4
  | .ns => 0x5#4
  | .nc => 0x6#4
  | .os => 0x7#4
  | .oc => 0x8#4
  | .hi => 0x9#4
  | .lo => 0xA#4
  | .ge => 0xB#4
  | .lt => 0xC#4
  | .gt => 0xD#4
  | .le => 0xE#4
  | .nv => 0xF#4

/-- The condition of a code (30_encoding.md R108). -/
def Cond.ofBits (b : BitVec 4) : Cond :=
  match b.toNat with
  | 0 => .al
  | 1 => .eq
  | 2 => .ne
  | 3 => .cs
  | 4 => .cc
  | 5 => .ns
  | 6 => .nc
  | 7 => .os
  | 8 => .oc
  | 9 => .hi
  | 10 => .lo
  | 11 => .ge
  | 12 => .lt
  | 13 => .gt
  | 14 => .le
  | _ => .nv

/-- The AF code of a pair (30_encoding.md R107). -/
def Pair.bits : Pair → BitVec 2
  | .l => 0x0#2
  | .a => 0x1#2
  | .s => 0x2#2
  | .p => 0x3#2

/-- The pair an AF code selects (30_encoding.md R107). -/
def Pair.ofBits (b : BitVec 2) : Pair :=
  match b.toNat with
  | 0 => .l
  | 1 => .a
  | 2 => .s
  | _ => .p

/-- The AF code of a status selector (30_encoding.md R107). -/
def StatusSel.bits : StatusSel → BitVec 2
  | .noUpdate => 0x0#2
  | .fromAlu => 0x1#2
  | .fromShift => 0x2#2
  | .reserved => 0x3#2

/-- The status selector of an AF code (30_encoding.md R107). -/
def StatusSel.ofBits (b : BitVec 2) : StatusSel :=
  match b.toNat with
  | 0 => .noUpdate
  | 1 => .fromAlu
  | 2 => .fromShift
  | _ => .reserved

/-- The ST code (30_encoding.md R109). -/
def ShiftType.bits : ShiftType → BitVec 3
  | .nul => 0x0#3
  | .lsl => 0x1#3
  | .lsr => 0x2#3
  | .asl => 0x3#3
  | .asr => 0x4#3
  | .rtl => 0x5#3
  | .rtr => 0x6#3
  | .reserved => 0x7#3

/-- The shift type of an ST code (30_encoding.md R109). -/
def ShiftType.ofBits (b : BitVec 3) : ShiftType :=
  match b.toNat with
  | 0 => .nul
  | 1 => .lsl
  | 2 => .lsr
  | 3 => .asl
  | 4 => .asr
  | 5 => .rtl
  | 6 => .rtr
  | _ => .reserved

/-- The SO bit (30_encoding.md R109). -/
def ShiftAmount.soBit : ShiftAmount → BitVec 1
  | .literal _ => 0#1
  | .register _ => 1#1

/-- The SA field (30_encoding.md R109). -/
def ShiftAmount.saBits : ShiftAmount → BitVec 4
  | .literal n => n
  | .register r => r.bits

/-- The shift amount of an SO bit and an SA field (30_encoding.md R109). -/
def ShiftAmount.ofBits (so : BitVec 1) (sa : BitVec 4) : ShiftAmount :=
  if so = 1#1 then .register (Reg.ofBits sa) else .literal sa

/-! ### Field positions (30_encoding.md R103 to R105) -/

/-- The opcode, bits 31 to 26. -/
def opcodeField (w : InstrWord) : BitVec 6 := w.extractLsb' 26 6

/-- The condition, bits 3 to 0. -/
def condField (w : InstrWord) : Cond := Cond.ofBits (w.extractLsb' 0 4)

/-- AF, bits 5 to 4, as pair selector. -/
def pairField (w : InstrWord) : Pair := Pair.ofBits (w.extractLsb' 4 2)

/-- AF, bits 5 to 4, as status selector. -/
def selField (w : InstrWord) : StatusSel := StatusSel.ofBits (w.extractLsb' 4 2)

/-- SO, ST, SA: bit 13, bits 12 to 10, bits 9 to 6. -/
def shiftField (w : InstrWord) : Shift :=
  { type := ShiftType.ofBits (w.extractLsb' 10 3)
    amount := ShiftAmount.ofBits (w.extractLsb' 13 1) (w.extractLsb' 6 4) }

/-- The fields of an Immediate-format ALU word (30_encoding.md R103). -/
def immAluFields (w : InstrWord) : ImmAlu :=
  { reg := Reg.ofBits (w.extractLsb' 22 4), imm := w.extractLsb' 6 16, sel := selField w, cond := condField w }

/-- The fields of an Immediate-format memory or control word (30_encoding.md R103). -/
def immMemFields (w : InstrWord) : ImmMem :=
  { reg := Reg.ofBits (w.extractLsb' 22 4), imm := w.extractLsb' 6 16, pair := pairField w, cond := condField w }

/-- The fields of a Short-Immediate-format word (30_encoding.md R104). -/
def shortAluFields (w : InstrWord) : ShortAlu :=
  { reg := Reg.ofBits (w.extractLsb' 22 4), imm8 := w.extractLsb' 14 8, shift := shiftField w, sel := selField w
    cond := condField w }

/-- The fields of a Register-format ALU word (30_encoding.md R105). -/
def regAluFields (w : InstrWord) : RegAlu :=
  { r1 := Reg.ofBits (w.extractLsb' 22 4), r2 := Reg.ofBits (w.extractLsb' 18 4)
    r3 := Reg.ofBits (w.extractLsb' 14 4), shift := shiftField w, sel := selField w, cond := condField w }

/-- The fields of a Register-format memory or control word (30_encoding.md R105). -/
def regMemFields (w : InstrWord) : RegMem :=
  { r1 := Reg.ofBits (w.extractLsb' 22 4), r2 := Reg.ofBits (w.extractLsb' 18 4)
    r3 := Reg.ofBits (w.extractLsb' 14 4), shift := shiftField w, pair := pairField w, cond := condField w }

/-! ### Words that carry a name of their own (log 33) -/

/-- Opcode 0x00: NOOP is the one word 0x00000000 (45_meta_instructions.md R320). -/
def nameAddi (f : ImmAlu) : Instr :=
  if f = { reg := .sr, imm := 0, sel := .noUpdate, cond := .al } then .noop else .addi f

/-- Opcode 0x0F: the call words of 30_encoding.md R116 are the exception unit's named operations. -/
def nameCopi (f : ImmAlu) : Instr :=
  let call : UnitCall := { reg := f.reg, par := f.imm.extractLsb' 0 8, sel := f.sel, cond := f.cond }
  match (f.imm.extractLsb' 8 8).toNat with
  | 0x11 => .excp call
  | 0x19 => .wait call
  | 0x1A => .rete call
  | 0x1B => .rset call
  | 0x1C => .etfr call
  | 0x1D => .ettr call
  | _ => .copi f

/-- Opcode 0x18: with destination p it is LJMP, and RETS is the word 0x63800000 (45_meta_instructions.md R321, R322). -/
def nameLdeaOff (f : ImmMem) : Instr :=
  if f.reg = .ph then
    if f.imm = 0 ∧ f.pair = .l ∧ f.cond = .al then .rets
    else .ljmpOff { imm := f.imm, pair := f.pair, cond := f.cond }
  else .ldeaOff f

/-- Opcode 0x19: with destination p it is LJMP (45_meta_instructions.md R322). -/
def nameLdeaIdx (f : RegMem) : Instr :=
  if f.r1 = .ph then .ljmpIdx { r2 := f.r2, r3 := f.r3, shift := f.shift, pair := f.pair, cond := f.cond }
  else .ldeaIdx f

/-- Opcode 0x20: with Imm8 = 0 and AF = 10 it is the shift SHFT, also called SHFI (45_meta_instructions.md R330, R331);
the model reads SHFI where the count is literal and SHFT where a register holds it (log 33). -/
def nameAddiShort (f : ShortAlu) : Instr :=
  if f.imm8 = 0 ∧ f.sel = .fromShift then
    if f.shift.amount.isRegister then .shft { reg := f.reg, shift := f.shift, cond := f.cond }
    else .shfi { reg := f.reg, shift := f.shift, cond := f.cond }
  else .addiShort f

/-- Opcode 0x30: with AF = 10 it is SHFR (45_meta_instructions.md R332). -/
def nameAddr (f : RegAlu) : Instr :=
  if f.sel = .fromShift then .shfr { r1 := f.r1, r2 := f.r2, r3 := f.r3, shift := f.shift, cond := f.cond }
  else .addr f

/-! ### The decoder -/

/-- The instruction a 32-bit word holds. Every word decodes (30_encoding.md R120). The opcode alone selects the format
(R106); the map is R113. -/
def decodeWord (w : InstrWord) : Instr :=
  match (opcodeField w).toNat with
  | 0x00 => nameAddi (immAluFields w)
  | 0x01 => .adci (immAluFields w)
  | 0x02 => .subi (immAluFields w)
  | 0x03 => .sbci (immAluFields w)
  | 0x04 => .andi (immAluFields w)
  | 0x05 => .orri (immAluFields w)
  | 0x06 => .xori (immAluFields w)
  | 0x07 => .loadImm (immAluFields w)
  | 0x08 => .undoc08 (immAluFields w)
  | 0x09 => .undoc09 (immAluFields w)
  | 0x0A => .cmpi (immAluFields w)
  | 0x0B => .undoc0B (immAluFields w)
  | 0x0C => .tsai (immAluFields w)
  | 0x0D => .undoc0D (immAluFields w)
  | 0x0E => .tsxi (immAluFields w)
  | 0x0F => nameCopi (immAluFields w)
  | 0x10 => .storOff (immMemFields w)
  | 0x11 => .storIdx (regMemFields w)
  | 0x12 => .storPreOff (immMemFields w)
  | 0x13 => .storPreIdx (regMemFields w)
  | 0x14 => .loadOff (immMemFields w)
  | 0x15 => .loadIdx (regMemFields w)
  | 0x16 => .loadPostOff (immMemFields w)
  | 0x17 => .loadPostIdx (regMemFields w)
  | 0x18 => nameLdeaOff (immMemFields w)
  | 0x19 => nameLdeaIdx (regMemFields w)
  | 0x1A => .branOff (immMemFields w)
  | 0x1B => .branIdx (regMemFields w)
  | 0x1C => .ljsrOff (immMemFields w)
  | 0x1D => .ljsrIdx (regMemFields w)
  | 0x1E => .brsrOff (immMemFields w)
  | 0x1F => .brsrIdx (regMemFields w)
  | 0x20 => nameAddiShort (shortAluFields w)
  | 0x21 => .adciShort (shortAluFields w)
  | 0x22 => .subiShort (shortAluFields w)
  | 0x23 => .sbciShort (shortAluFields w)
  | 0x24 => .andiShort (shortAluFields w)
  | 0x25 => .orriShort (shortAluFields w)
  | 0x26 => .xoriShort (shortAluFields w)
  | 0x27 => .loadShort (shortAluFields w)
  | 0x28 => .undoc28 (shortAluFields w)
  | 0x29 => .undoc29 (shortAluFields w)
  | 0x2A => .cmpiShort (shortAluFields w)
  | 0x2B => .undoc2B (shortAluFields w)
  | 0x2C => .tsaiShort (shortAluFields w)
  | 0x2D => .undoc2D (shortAluFields w)
  | 0x2E => .tsxiShort (shortAluFields w)
  | 0x2F => .copiShort (shortAluFields w)
  | 0x30 => nameAddr (regAluFields w)
  | 0x31 => .adcr (regAluFields w)
  | 0x32 => .subr (regAluFields w)
  | 0x33 => .sbcr (regAluFields w)
  | 0x34 => .andr (regAluFields w)
  | 0x35 => .orrr (regAluFields w)
  | 0x36 => .xorr (regAluFields w)
  | 0x37 => .loadReg (regAluFields w)
  | 0x38 => .undoc38 (regAluFields w)
  | 0x39 => .undoc39 (regAluFields w)
  | 0x3A => .cmpr (regAluFields w)
  | 0x3B => .undoc3B (regAluFields w)
  | 0x3C => .tsar (regAluFields w)
  | 0x3D => .undoc3D (regAluFields w)
  | 0x3E => .tsxr (regAluFields w)
  | _ => .copr (regAluFields w)

/-- Why bytes do not decode. No 32-bit word is rejected (30_encoding.md R120), so the one reason is that fewer than the
four bytes of an instruction are there. -/
inductive DecodeError where
  /-- Fewer than four bytes: an instruction is always 32 bits (30_encoding.md R100). Safe. -/
  | truncated
  deriving DecidableEq, Repr

/-- The instruction at the head of a list of bytes, as memory holds them (the high word first, and in each word its bits
15 to 8 first: log 1), with the bytes after it; total, rejecting by name. -/
def decode : List Byte → Except DecodeError (Instr × List Byte)
  | b3 :: b2 :: b1 :: b0 :: rest => .ok (decodeWord (b3 ++ b2 ++ b1 ++ b0), rest)
  | _ => .error .truncated

/-- The four bytes of an instruction word in the order of memory. -/
def wordBytes (w : InstrWord) : List Byte :=
  [w.extractLsb' 24 8, w.extractLsb' 16 8, w.extractLsb' 8 8, w.extractLsb' 0 8]

/-- The decoder on an instruction whose bits are `w`, numbered as spec/opcode_table.json numbers them: bit 31 the top bit
of the opcode, bits 31 to 16 in the word at the lower address (log 38). -/
def decodeTableWord (nbits w : Nat) : Option Instr :=
  match decode (wordBytes (BitVec.ofNat 32 (w % 2 ^ nbits))) with
  | .ok (i, _) => some i
  | .error _ => none

/-! ### The encoder -/

/-- Immediate format (30_encoding.md R103): Opcode, Reg, Imm16, AF, Cond. -/
def encImm (op : BitVec 6) (r : Reg) (imm : Word) (af : BitVec 2) (c : Cond) : InstrWord :=
  op ++ r.bits ++ imm ++ af ++ c.bits

/-- Short Immediate format (30_encoding.md R104): Opcode, Reg, Imm8, SO, ST, SA, AF, Cond. -/
def encShort (op : BitVec 6) (r : Reg) (imm8 : BitVec 8) (sh : Shift) (af : BitVec 2) (c : Cond) : InstrWord :=
  op ++ r.bits ++ imm8 ++ sh.amount.soBit ++ sh.type.bits ++ sh.amount.saBits ++ af ++ c.bits

/-- Register format (30_encoding.md R105): Opcode, R1, R2, R3, SO, ST, SA, AF, Cond. -/
def encReg (op : BitVec 6) (rd ra rb : Reg) (sh : Shift) (af : BitVec 2) (c : Cond) : InstrWord :=
  op ++ rd.bits ++ ra.bits ++ rb.bits ++ sh.amount.soBit ++ sh.type.bits ++ sh.amount.saBits ++ af ++ c.bits

/-- An Immediate-format ALU word. -/
def encImmAlu (op : BitVec 6) (f : ImmAlu) : InstrWord := encImm op f.reg f.imm f.sel.bits f.cond

/-- An Immediate-format memory or control word. -/
def encImmMem (op : BitVec 6) (f : ImmMem) : InstrWord := encImm op f.reg f.imm f.pair.bits f.cond

/-- A Short-Immediate-format word. -/
def encShortAlu (op : BitVec 6) (f : ShortAlu) : InstrWord := encShort op f.reg f.imm8 f.shift f.sel.bits f.cond

/-- A Register-format ALU word. -/
def encRegAlu (op : BitVec 6) (f : RegAlu) : InstrWord := encReg op f.r1 f.r2 f.r3 f.shift f.sel.bits f.cond

/-- A Register-format memory or control word. -/
def encRegMem (op : BitVec 6) (f : RegMem) : InstrWord := encReg op f.r1 f.r2 f.r3 f.shift f.pair.bits f.cond

/-- A COPI word whose call word is `code` over the parameter byte (30_encoding.md R116). -/
def encUnitCall (code : BitVec 8) (f : UnitCall) : InstrWord :=
  encImm 0x0F#6 f.reg (code ++ f.par) f.sel.bits f.cond

/-- The 32-bit word of an instruction (30_encoding.md R103 to R105, R113, R116; 45_meta_instructions.md). -/
def encodeWord : Instr → InstrWord
  | .addi f => encImmAlu 0x00#6 f
  | .adci f => encImmAlu 0x01#6 f
  | .subi f => encImmAlu 0x02#6 f
  | .sbci f => encImmAlu 0x03#6 f
  | .andi f => encImmAlu 0x04#6 f
  | .orri f => encImmAlu 0x05#6 f
  | .xori f => encImmAlu 0x06#6 f
  | .loadImm f => encImmAlu 0x07#6 f
  | .undoc08 f => encImmAlu 0x08#6 f
  | .undoc09 f => encImmAlu 0x09#6 f
  | .cmpi f => encImmAlu 0x0A#6 f
  | .undoc0B f => encImmAlu 0x0B#6 f
  | .tsai f => encImmAlu 0x0C#6 f
  | .undoc0D f => encImmAlu 0x0D#6 f
  | .tsxi f => encImmAlu 0x0E#6 f
  | .copi f => encImmAlu 0x0F#6 f
  | .storOff f => encImmMem 0x10#6 f
  | .storIdx f => encRegMem 0x11#6 f
  | .storPreOff f => encImmMem 0x12#6 f
  | .storPreIdx f => encRegMem 0x13#6 f
  | .loadOff f => encImmMem 0x14#6 f
  | .loadIdx f => encRegMem 0x15#6 f
  | .loadPostOff f => encImmMem 0x16#6 f
  | .loadPostIdx f => encRegMem 0x17#6 f
  | .ldeaOff f => encImmMem 0x18#6 f
  | .ldeaIdx f => encRegMem 0x19#6 f
  | .branOff f => encImmMem 0x1A#6 f
  | .branIdx f => encRegMem 0x1B#6 f
  | .ljsrOff f => encImmMem 0x1C#6 f
  | .ljsrIdx f => encRegMem 0x1D#6 f
  | .brsrOff f => encImmMem 0x1E#6 f
  | .brsrIdx f => encRegMem 0x1F#6 f
  | .addiShort f => encShortAlu 0x20#6 f
  | .adciShort f => encShortAlu 0x21#6 f
  | .subiShort f => encShortAlu 0x22#6 f
  | .sbciShort f => encShortAlu 0x23#6 f
  | .andiShort f => encShortAlu 0x24#6 f
  | .orriShort f => encShortAlu 0x25#6 f
  | .xoriShort f => encShortAlu 0x26#6 f
  | .loadShort f => encShortAlu 0x27#6 f
  | .undoc28 f => encShortAlu 0x28#6 f
  | .undoc29 f => encShortAlu 0x29#6 f
  | .cmpiShort f => encShortAlu 0x2A#6 f
  | .undoc2B f => encShortAlu 0x2B#6 f
  | .tsaiShort f => encShortAlu 0x2C#6 f
  | .undoc2D f => encShortAlu 0x2D#6 f
  | .tsxiShort f => encShortAlu 0x2E#6 f
  | .copiShort f => encShortAlu 0x2F#6 f
  | .addr f => encRegAlu 0x30#6 f
  | .adcr f => encRegAlu 0x31#6 f
  | .subr f => encRegAlu 0x32#6 f
  | .sbcr f => encRegAlu 0x33#6 f
  | .andr f => encRegAlu 0x34#6 f
  | .orrr f => encRegAlu 0x35#6 f
  | .xorr f => encRegAlu 0x36#6 f
  | .loadReg f => encRegAlu 0x37#6 f
  | .undoc38 f => encRegAlu 0x38#6 f
  | .undoc39 f => encRegAlu 0x39#6 f
  | .cmpr f => encRegAlu 0x3A#6 f
  | .undoc3B f => encRegAlu 0x3B#6 f
  | .tsar f => encRegAlu 0x3C#6 f
  | .undoc3D f => encRegAlu 0x3D#6 f
  | .tsxr f => encRegAlu 0x3E#6 f
  | .copr f => encRegAlu 0x3F#6 f
  | .excp f => encUnitCall 0x11#8 f
  | .wait f => encUnitCall 0x19#8 f
  | .rete f => encUnitCall 0x1A#8 f
  | .rset f => encUnitCall 0x1B#8 f
  | .etfr f => encUnitCall 0x1C#8 f
  | .ettr f => encUnitCall 0x1D#8 f
  | .noop => 0x00000000#32
  | .rets => 0x63800000#32
  | .ljmpOff f => encImm 0x18#6 .ph f.imm f.pair.bits f.cond
  | .ljmpIdx f => encReg 0x19#6 .ph f.r2 f.r3 f.shift f.pair.bits f.cond
  | .shft f => encShort 0x20#6 f.reg 0x00#8 f.shift StatusSel.fromShift.bits f.cond
  | .shfi f => encShort 0x20#6 f.reg 0x00#8 f.shift StatusSel.fromShift.bits f.cond
  | .shfr f => encReg 0x30#6 f.r1 f.r2 f.r3 f.shift StatusSel.fromShift.bits f.cond

/-- The two 16-bit words of an instruction, the high word first (30_encoding.md R101). -/
def encode (i : Instr) : List Word :=
  [(encodeWord i).extractLsb' 16 16, (encodeWord i).extractLsb' 0 16]

/-- The bytes of an instruction as memory holds them. -/
def encodeBytes (i : Instr) : List Byte := wordBytes (encodeWord i)

end Sys2Proof
end

