-- ==== Sys2Proof/Config.lean ====
section
/-! DEFINITION. What an implementation fixes and the manual leaves open: the parameters of 00_scope.md R6 that have no
default, and the free values. Every constant here is opaque: nothing can be proved of its value, so a claim about the
machine holds whatever it is. The parameters of R6 that have a default are data of the state (`Machine.Params`). -/

namespace Sys2Proof

/-- `VEC_TRACE`, the vector id of the Instruction Trace Fault (00_scope.md R6, 60_exceptions.md R361). Left open by the
manual; log 13. -/
opaque Config.vecTrace : BitVec 8

/-- `VEC_L5CONFLICT`, the vector id of the Level Five Hardware Exception Conflict (00_scope.md R6, 60_exceptions.md R362).
Left open by the manual; log 14. -/
opaque Config.vecLevelFiveConflict : BitVec 8

/-- `SHORT_IMM_EXT` (00_scope.md R6, 30_encoding.md R110): true when the 8-bit immediate is sign-extended, false when it
is zero-extended. Left open by the manual; log 10. -/
opaque Config.shortImmSigned : Bool

/-- Which of the two words 0x1000 and 0x0000 the cause register holds when no exception is pending (60_exceptions.md R386:
the manual does not say which); log 6. -/
opaque Config.causeIdleNamesExceptionUnit : Bool

/-- Free value: the word a shift by a register count above 15 produces (40_common_execution.md R148); log 8. -/
opaque Config.freeShiftResult : Nat → Word

/-- Free value: the carry out of a shift by a register count above 15 (40_common_execution.md R148); log 8. -/
opaque Config.freeShiftCarry : Nat → Bool

/-- Free value: the V flag after a shift used as flag source, where 40_common_execution.md R158 gives it `any value`;
log 9. -/
opaque Config.freeShiftOverflow : Nat → Bool

/-- Free value: the flags N, Z, C, V (bits 3 to 0) after an undocumented opcode (46_undocumented.md R344); log 11. -/
opaque Config.freeFlags : Nat → BitVec 4

/-- Free value: the low register of a pair that a post-increment LOAD both loads and increments (42_memory_access.md R237,
R238); log 12. -/
opaque Config.freePostIncrement : Nat → Word

/-- Free value: what a read of a device address gives when the platform's input does not say (00_scope.md R6 `DeviceRead`);
log 17. -/
opaque Config.freeDeviceWord : Nat → Addr → Word

end Sys2Proof
end

