-- ==== Sys2Proof/Machine/State.lean ====
section
/-! DEFINITION. The state of the machine as plain data, the reasons a step can stop, and the state after reset. The state
is that of 10_state.md (registers, exception unit), the memory of 20_memory.md, the platform's inputs and the parameters of
00_scope.md R6, and one field of the model's own, `freeCount`. -/

namespace Sys2Proof.Machine

/-- The sixteen 16-bit registers (10_state.md R20, R21). `sr` is the stored word: bit 13 is never stored (R38). -/
structure RegFile where
  sr : Word
  r1 : Word
  r2 : Word
  r3 : Word
  r4 : Word
  r5 : Word
  r6 : Word
  r7 : Word
  lh : Word
  ll : Word
  ah : Word
  al : Word
  sh : Word
  sl : Word
  ph : Word
  pl : Word
  deriving DecidableEq, Repr

/-- An exception link register, index 0 to 6 (10_state.md R43): return address `ph ++ pl`, status register, and the
hidden level. -/
structure LinkReg where
  addr  : BitVec 32
  sr    : Word
  level : Fin 8
  deriving DecidableEq, Repr

/-- Link register 7, the fault metadata (10_state.md R43, 60_exceptions.md R364): bus address and metadata word. It has no
level. -/
structure FaultMeta where
  addr : BitVec 32
  sr   : Word
  deriving DecidableEq, Repr

/-- The five hardware interrupt lines (60_exceptions.md R368). -/
inductive IrqLine where
  | line1 | line2 | line3 | line4 | line5
  deriving DecidableEq, Repr

/-- The five pending latches (10_state.md R46). -/
structure Pending where
  line1 : Bool
  line2 : Bool
  line3 : Bool
  line4 : Bool
  line5 : Bool
  deriving DecidableEq, Repr

/-- The kinds of bus access (20_memory.md R72). -/
inductive AccessKind where
  | fetch | load | store | vector
  deriving DecidableEq, Repr

/-- A range of word addresses, first to last, for which the platform asserts the bus-error pin on accesses of one kind
(00_scope.md R6 `BusError`; log 16). -/
structure BusErrorRegion where
  first : Addr
  last  : Addr
  kind  : AccessKind
  deriving DecidableEq, Repr

/-- The eight named faults (60_exceptions.md R356 to R363). -/
inductive FaultKind where
  | bus | alignment | segmentOverflow | invalidOpcode | privilegeViolation | doubleFault | trace | levelFiveConflict
  deriving DecidableEq, Repr

/-- A range of word addresses, first to last, that the platform maps to devices (00_scope.md R6, 20_memory.md R76;
log 17). -/
structure DeviceRange where
  first : Addr
  last  : Addr
  deriving DecidableEq, Repr

/-- A word at a device address: presented by the device to be read, or sent to it by a store (00_scope.md R6 `DeviceRead`,
`DeviceWrite`; log 17). -/
structure DeviceWord where
  addr  : Addr
  value : Word
  deriving DecidableEq, Repr

/-- `UNDOC_OPS` (00_scope.md R6, 46_undocumented.md R340): what may be relied on of the twelve undocumented opcodes. -/
inductive UndocOps where
  /-- The default: their flags are not stated (46_undocumented.md R344; log 11). -/
  | refuse
  /-- They are the flag-only test variants (46_undocumented.md R341 to R343). -/
  | test
  deriving DecidableEq, Repr

/-- The code of a fault in the metadata word, where it is not the default (00_scope.md R6 `FAULT_CODE`; log 18). -/
structure FaultCode where
  fault : FaultKind
  code  : BitVec 4
  deriving DecidableEq, Repr

/-- The parameters of 00_scope.md R6 that have a default. No step changes them. -/
structure Params where
  /-- Where the platform maps devices: the domain of `DeviceRead` and `DeviceWrite` (log 17). -/
  devices : List DeviceRange
  /-- `UNDOC_OPS` (log 11). -/
  undocOps : UndocOps
  /-- `FAULT_CODE`, where it is not the vector id (log 18). -/
  faultCodes : List FaultCode
  /-- `COPROCESSORS` beside 0x0 and 0x1, which every SIRC-1 has (00_scope.md R4, R5; log 36). -/
  optionalUnits : List (BitVec 4)
  deriving DecidableEq, Repr

/-- Memory: (byte address, byte) pairs. The word at word address `a` is the two bytes at `2a` (bits 15 to 8) and `2a + 1`
(bits 7 to 0); what is not listed reads as zero (log 1, log 2). The canonical form is `Memory.wf`. -/
abbrev Memory := List Host.Cell

/-- The whole state. -/
structure State where
  /-- The sixteen registers (10_state.md R20). -/
  regs : RegFile
  /-- `current_exception_level` (10_state.md R44). -/
  level : Fin 8
  /-- `waiting_for_exception` (10_state.md R47). -/
  waiting : Bool
  /-- The pending interrupt latches (10_state.md R46). -/
  pending : Pending
  /-- Exception link registers 0 to 6 (10_state.md R43). -/
  links : Vector LinkReg 7
  /-- Link register 7, the fault metadata (10_state.md R43). -/
  faultMeta : FaultMeta
  /-- The cause register (10_state.md R45, 60_exceptions.md R386). -/
  cause : Word
  /-- Memory (20_memory.md R70). -/
  mem : Memory
  /-- Input of the platform: the interrupt events of the coming instruction boundaries, the next one first; when the list
  is empty no event comes (00_scope.md R6 `IrqEvents`; log 15). -/
  irqEvents : List (List IrqLine)
  /-- Input of the platform: where it answers with a bus error (00_scope.md R6 `BusError`; log 16). No step changes it. -/
  busErrors : List BusErrorRegion
  /-- The parameters of 00_scope.md R6 that have a default. No step changes them. -/
  params : Params
  /-- Input of the platform: the words its devices present to be read now (00_scope.md R6 `DeviceRead`; log 17). -/
  deviceWords : List DeviceWord
  /-- Input of the platform: what its devices will present from the coming instruction boundaries on, the next one first;
  when the list is empty they go on presenting the same (00_scope.md R6 `DeviceRead`; log 17). -/
  deviceEvents : List (List DeviceWord)
  /-- Output to the platform: the words stores have sent to devices, the latest first (00_scope.md R6 `DeviceWrite`;
  log 17). -/
  deviceWrites : List DeviceWord
  /-- The model's own: the index at which the free values of the current instruction are drawn (log 7). -/
  freeCount : Nat
  deriving DecidableEq, Repr

/-- Why the machine stops with a fault of the model. The faults of the SPEC are not here: each is an exception that is
taken, a next state (60_exceptions.md R355). -/
inductive Fault where
  /-- Raised by `enterException` and by RSET when the platform signals a bus error on the exception unit's own read of a
  vector: "A bus error on a vector read has no defined behaviour in D00; the model refuses it" (20_memory.md R78,
  60_exceptions.md R354). Safe: nothing is claimed of the hardware from there on. -/
  | vectorBusError
  deriving DecidableEq, Repr

/-- Why a step has no meaning. Each but the first is a `refuse` of the spec (00_scope.md R9) and safe: nothing is claimed
of the hardware from there on. -/
inductive Refusal where
  /-- Raised by the arm of an instruction that has no meaning yet. Safe. -/
  | notModelled (mnemonic : String)
  /-- Raised by ALU instructions other than LOAD with AF = 11, "Reserved for future use" (30_encoding.md R117). Safe. -/
  | reservedStatusSelect
  /-- Raised by instructions of the Short Immediate and Register formats with ST = 111, "may have undefined behavior"
  (30_encoding.md R118). Safe. -/
  | reservedShiftType
  /-- Raised by LOAD 0x27, 0x37 and the register-offset control instructions with non-zero shift fields (41_alu.md R202,
  R213; 43_control_flow.md R260). Safe. -/
  | shiftFieldsNotZero
  /-- Raised by LDEA whose destination field does not name a pair by its high register (43_control_flow.md R261). Safe. -/
  | destinationNotAPair
  /-- Raised by BRAN and BRSR with a pair other than p (43_control_flow.md R263, R267). Safe. -/
  | branchPairNotProgramCounter
  /-- Raised by BRSR in protected mode (43_control_flow.md R267: the manual does not settle what it does). Safe. -/
  | brsrInProtectedMode
  /-- Raised by a coprocessor call with id 0x0: no callable operation is defined (44_coprocessor.md R294). Safe. -/
  | processingUnitCall
  /-- Raised by a call of an optional coprocessor, 0x2 to 0xF, on a platform that has it: "D00 names them only in Table 1.2
  as optional" and gives no operation (00_scope.md R4). Safe. -/
  | optionalUnitCall
  /-- Raised by EXCP in supervisor mode with a vector below 0x60 (44_coprocessor.md R295). Safe. -/
  | excpVectorOutOfRange
  /-- Raised by EXCP at level 1 or above (44_coprocessor.md R295). Safe. -/
  | excpInsideHandler
  /-- Raised by RETE at level 0 (44_coprocessor.md R297). Safe. -/
  | reteOutsideHandler
  /-- Raised by ETFR and ETTR with a link register index of 8 to 15 (44_coprocessor.md R299, R300). Safe. -/
  | linkIndexOutOfRange
  deriving DecidableEq, Repr

/-- The outcome of one step or one meaning. -/
abbrev Result := Host.Outcome State Fault Refusal

/-- Every register zero. -/
def RegFile.zero : RegFile :=
  { sr := 0, r1 := 0, r2 := 0, r3 := 0, r4 := 0, r5 := 0, r6 := 0, r7 := 0
    lh := 0, ll := 0, ah := 0, al := 0, sh := 0, sl := 0, ph := 0, pl := 0 }

/-- No latch set. -/
def Pending.none : Pending :=
  { line1 := false, line2 := false, line3 := false, line4 := false, line5 := false }

/-- The defaults of 00_scope.md R6: no device, `UNDOC_OPS` = `refuse`, every fault code the vector id, no optional
coprocessor. -/
def Params.default : Params := { devices := [], undocOps := .refuse, faultCodes := [], optionalUnits := [] }

/-- The machine right after hardware reset with nothing placed in memory (70_reset_and_hazards.md R420, R421): the status
register clear, level 0, not waiting, nothing pending, and the program counter at the words of vector 0x00, which read as
zero here. Registers and link registers for which the spec states no value hold zero (log 3, 4, 5, 6). For another memory
image see `hardwareReset`. -/
def State.reset : State :=
  { regs := RegFile.zero
    level := 0
    waiting := false
    pending := Pending.none
    links := Vector.replicate 7 { addr := 0, sr := 0, level := 0 }
    faultMeta := { addr := 0, sr := 0 }
    cause := 0
    mem := []
    irqEvents := []
    busErrors := []
    params := Params.default
    deviceWords := []
    deviceEvents := []
    deviceWrites := []
    freeCount := 0 }

end Sys2Proof.Machine
end

