-- ==== Sys2Proof/Machine/Ops.lean ====
section
/-! DEFINITION. The named operations over memory, registers and the exception unit: reading and writing memory
(20_memory.md R72), registers (10_state.md R41, R42), taking an exception (60_exceptions.md R354, R355, R363) and returning
from one (44_coprocessor.md R297). -/

namespace Sys2Proof.Machine

/-! ### Memory -/

/-- The byte at a byte address; a byte nothing lists is zero (log 2). -/
def Memory.readByte : Memory → Nat → Byte
  | [], _ => 0
  | (k, v) :: m, a => if k = a then v else Memory.readByte m a

/-- Store a byte, keeping the list strictly rising and free of zero bytes. -/
def Memory.writeByte : Memory → Nat → Byte → Memory
  | [], a, v => if v = 0 then [] else [(a, v)]
  | (k, w) :: m, a, v =>
    if a < k then (if v = 0 then (k, w) :: m else (a, v) :: (k, w) :: m)
    else if a = k then (if v = 0 then m else (a, v) :: m)
    else (k, w) :: Memory.writeByte m a v

/-- The addresses rise strictly from `lo`, lie in the 2^25 bytes of the space, and no listed byte is zero. -/
def Memory.wfFrom : Nat → Memory → Bool
  | _, [] => true
  | lo, (k, v) :: m => decide (lo ≤ k) && decide (k < 2 ^ 25) && decide (v ≠ 0) && Memory.wfFrom (k + 1) m

/-- The canonical form of memory. -/
def Memory.wf (m : Memory) : Bool := Memory.wfFrom 0 m

/-- The 16-bit word at a word address (20_memory.md R70, R72). -/
def Memory.readWord (m : Memory) (a : Addr) : Word :=
  m.readByte (2 * a.toNat) ++ m.readByte (2 * a.toNat + 1)

/-- Store a 16-bit word at a word address (20_memory.md R72). -/
def Memory.writeWord (m : Memory) (a : Addr) (v : Word) : Memory :=
  (m.writeByte (2 * a.toNat) (v.extractLsb' 8 8)).writeByte (2 * a.toNat + 1) (v.extractLsb' 0 8)

/-- An address lies in a device range. -/
def DeviceRange.covers (r : DeviceRange) (a : Addr) : Bool := decide (r.first ≤ a) && decide (a ≤ r.last)

/-- The platform maps a device at an address (00_scope.md R6, 20_memory.md R76; log 17). -/
def State.isDevice (s : State) (a : Addr) : Bool := s.params.devices.any fun r => r.covers a

/-- `DeviceRead` (00_scope.md R6): the word the platform presents at a device address; any value where it presents none,
drawn at the counter and the address. DESIGN CHOICE: two reads of one such address at one count of the counter give the same
word (log 7, log 17). -/
def State.deviceRead (s : State) (a : Addr) : Word :=
  match s.deviceWords.find? fun d => d.addr == a with
  | some d => d.value
  | none => Config.freeDeviceWord s.freeCount a

/-- `DeviceWrite` (00_scope.md R6): the word goes to the device, and memory keeps its own (log 17). -/
def State.deviceWrite (s : State) (a : Addr) (v : Word) : State :=
  { s with deviceWrites := { addr := a, value := v } :: s.deviceWrites }

/-- `MemRead(addr, 1)` once the platform has accepted the access (20_memory.md R72, R76): plain memory, or a device. -/
def State.readWord (s : State) (a : Addr) : Word := if s.isDevice a then s.deviceRead a else s.mem.readWord a

/-- `MemWrite(addr, 1, v)` once the platform has accepted the access (20_memory.md R72, R76): plain memory, or a device. -/
def State.writeWord (s : State) (a : Addr) (v : Word) : State :=
  if s.isDevice a then s.deviceWrite a v else { s with mem := s.mem.writeWord a v }

/-- `BusError(addr, kind)`: the platform asserts the bus-error pin (20_memory.md R86). -/
def State.busError (s : State) (a : Addr) (kind : AccessKind) : Bool :=
  s.busErrors.any fun r => r.kind == kind && decide (r.first ≤ a) && decide (a ≤ r.last)

/-! ### The register file -/

/-- `raw[i]`: the stored value (00_scope.md R8). -/
def RegFile.get (f : RegFile) : Reg → Word
  | .sr => f.sr
  | .r1 => f.r1
  | .r2 => f.r2
  | .r3 => f.r3
  | .r4 => f.r4
  | .r5 => f.r5
  | .r6 => f.r6
  | .r7 => f.r7
  | .lh => f.lh
  | .ll => f.ll
  | .ah => f.ah
  | .al => f.al
  | .sh => f.sh
  | .sl => f.sl
  | .ph => f.ph
  | .pl => f.pl

/-- Store into `raw[i]`. -/
def RegFile.set (f : RegFile) (r : Reg) (v : Word) : RegFile :=
  match r with
  | .sr => { f with sr := v }
  | .r1 => { f with r1 := v }
  | .r2 => { f with r2 := v }
  | .r3 => { f with r3 := v }
  | .r4 => { f with r4 := v }
  | .r5 => { f with r5 := v }
  | .r6 => { f with r6 := v }
  | .r7 => { f with r7 := v }
  | .lh => { f with lh := v }
  | .ll => { f with ll := v }
  | .ah => { f with ah := v }
  | .al => { f with al := v }
  | .sh => { f with sh := v }
  | .sl => { f with sl := v }
  | .ph => { f with ph := v }
  | .pl => { f with pl := v }

/-- `raw[i] <- v`, unchecked. -/
def State.setReg (s : State) (r : Reg) (v : Word) : State := { s with regs := s.regs.set r v }

/-- The high registers, the ones protected mode may not write (10_state.md R42). -/
def isHighReg : Reg → Bool
  | .lh | .ah | .sh | .ph => true
  | .sr | .r1 | .r2 | .r3 | .r4 | .r5 | .r6 | .r7 | .ll | .al | .sl | .pl => false

/-! ### The status register (10_state.md R30) -/

/-- SR.P, bit 8: protected mode (10_state.md R36). -/
def State.protectedMode (s : State) : Bool := s.regs.sr.getLsbD 8

/-- SR.A, bit 14: trap on address overflow (10_state.md R39). -/
def State.trapOverflow (s : State) : Bool := s.regs.sr.getLsbD 14

/-- SR.T, bit 15: trace mode (10_state.md R40). -/
def State.traceMode (s : State) : Bool := s.regs.sr.getLsbD 15

/-- SR.E1 to SR.E4, bits 9 to 12; line 5 has no enable bit and is always enabled (10_state.md R37, 60_exceptions.md
R368). -/
def State.lineEnabled (s : State) : IrqLine → Bool
  | .line1 => s.regs.sr.getLsbD 9
  | .line2 => s.regs.sr.getLsbD 10
  | .line3 => s.regs.sr.getLsbD 11
  | .line4 => s.regs.sr.getLsbD 12
  | .line5 => true

/-- A status word with bit 13 dropped (10_state.md R38). -/
def dropEA (v : Word) : Word := v &&& 0xDFFF#16

/-- The full status register: the stored word with bit 13 = (level != 0) (10_state.md R38, R41). -/
def State.srFull (s : State) : Word :=
  if s.level = 0 then dropEA s.regs.sr else s.regs.sr ||| 0x2000#16

/-- `RegRead(i)` (10_state.md R41): in protected mode bits 15 to 8 of `sr` read as zero. -/
def State.readReg (s : State) (r : Reg) : Word :=
  if r = .sr then (if s.protectedMode then s.srFull &&& 0x00FF#16 else s.srFull) else s.regs.get r

/-- `RegWrite(i, v)` after the privilege check (10_state.md R42): in protected mode only the low byte of `sr` is written;
in supervisor mode bit 13 is dropped. -/
def State.writeReg (s : State) (r : Reg) (v : Word) : State :=
  if r = .sr then
    s.setReg .sr (if s.protectedMode then (s.regs.sr &&& 0xFF00#16) ||| (v &&& 0x00FF#16) else dropEA v)
  else s.setReg r v

/-! ### The program counter -/

/-- The 24-bit address of a pair: `(high[7:0] << 16) | low` (10_state.md R23, 20_memory.md R71). -/
def busAddr (hi lo : Word) : Addr := hi.extractLsb' 0 8 ++ lo

/-- The program counter as stored, `ph ++ pl` (00_scope.md R8 `iaddr`). -/
def State.pc (s : State) : BitVec 32 := s.regs.ph ++ s.regs.pl

/-- `(ph, pl) <- target`. -/
def State.setPc (s : State) (target : BitVec 32) : State :=
  (s.setReg .ph (target.extractLsb' 16 16)).setReg .pl (target.extractLsb' 0 16)

/-- The program counter after fetch: `pl` advanced by 2, modulo 2^16; `ph` never changes (10_state.md R28, R29). -/
def State.advance (s : State) : State := s.setReg .pl (s.regs.pl + 2)

/-! ### The exception unit -/

/-- The vector id of a fault (60_exceptions.md R351, R361, R362). -/
def vectorOf : FaultKind → BitVec 8
  | .bus => 0x01#8
  | .alignment => 0x02#8
  | .segmentOverflow => 0x03#8
  | .invalidOpcode => 0x04#8
  | .privilegeViolation => 0x05#8
  | .doubleFault => 0x06#8
  | .trace => Config.vecTrace
  | .levelFiveConflict => Config.vecLevelFiveConflict

/-- `FAULT_CODE(f)`: the parameter's code, by default the low four bits of the vector id (00_scope.md R6,
60_exceptions.md R365; log 18). -/
def State.faultCode (s : State) (f : FaultKind) : BitVec 4 :=
  match s.params.faultCodes.find? fun c => c.fault == f with
  | some c => c.code
  | none => (vectorOf f).extractLsb' 0 4

/-- The two word addresses of a vector entry: `2 * id` and `2 * id + 1` (20_memory.md R77). -/
def vectorAddr (id : BitVec 8) : Addr := BitVec.ofNat 24 (2 * id.toNat)

/-- `Vector(id)` (20_memory.md R78): the high word at `2 * id`, the low word at `2 * id + 1`; nothing when the platform
signals a bus error on either read. -/
def State.readVector (s : State) (id : BitVec 8) : Option (BitVec 32) :=
  let a := vectorAddr id
  if s.busError a .vector || s.busError (a + 1) .vector then none
  else some (s.readWord a ++ s.readWord (a + 1))

/-- The status register on exception entry: P (bit 8) and T (bit 15) cleared, nothing else changed (60_exceptions.md
R354). -/
def entrySr (v : Word) : Word := v &&& 0x7EFF#16

/-- `EnterException(vector, newlevel, linkidx, retaddr)` (60_exceptions.md R354): the one entry sequence of traps,
interrupts and faults. The link register takes the return address, the full status register and the level; P and T are
cleared; the level is raised; the wait ends; control goes to the address the vector holds. -/
def enterException (vector : BitVec 8) (newLevel : Fin 8) (linkIdx : Fin 7) (ret : BitVec 32) (s : State) : Result :=
  match s.readVector vector with
  | none => .fault .vectorBusError
  | some target =>
    .next
      (({ s with
          links := s.links.set linkIdx { addr := ret, sr := s.srFull, level := s.level }
          level := newLevel
          waiting := false }.setReg .sr (entrySr s.regs.sr)).setPc target)

/-- The fault metadata word of a first fault: code in bits 7 to 4, phase in bits 2 to 0 (60_exceptions.md R355, R364). -/
def faultWord (code : BitVec 4) (phase : BitVec 3) : Word :=
  0#8 ++ code ++ 0#1 ++ phase

/-- The metadata word of a double fault: original type, current type, double-fault flag, phase (60_exceptions.md R363,
R364). -/
def doubleFaultWord (old : Word) (code : BitVec 4) (phase : BitVec 3) : Word :=
  0#4 ++ old.extractLsb' 4 4 ++ code ++ 1#1 ++ phase

/-- The cause register on a fault: 0x1E00 with the vector (60_exceptions.md R386). -/
def faultCause (vector : BitVec 8) : Word := 0x1E#8 ++ vector

/-- `DoubleFault(phase, busaddr, retaddr)` (60_exceptions.md R363). -/
def doubleFault (phase : BitVec 3) (bus : Addr) (ret : BitVec 32) (s : State) : Result :=
  enterException (vectorOf .doubleFault) 7 6 ret
    { s with
      faultMeta := { addr := bus.zeroExtend 32, sr := doubleFaultWord s.faultMeta.sr (s.faultCode .doubleFault) phase }
      cause := faultCause (vectorOf .doubleFault) }

/-- The entry of a fault with a given return address (60_exceptions.md R355, R361, R362): a double fault when a fault is
already being handled, else the metadata is recorded and the fault's vector entered at level 7 through link register 6.
`s` is the state the handler is to see, so the caller passes the state before the instruction for a fault of an
instruction. -/
def takeFault (f : FaultKind) (phase : BitVec 3) (bus : Addr) (ret : BitVec 32) (s : State) : Result :=
  if s.level = 7 then doubleFault phase bus ret s
  else
    enterException (vectorOf f) 7 6 ret
      { s with
        faultMeta := { addr := bus.zeroExtend 32, sr := faultWord (s.faultCode f) phase }
        cause := faultCause (vectorOf f) }

/-- `RaiseFault(f, phase, busaddr)` (60_exceptions.md R355) for the instruction at the program counter of `s`, the state
before the instruction: no effect of it remains and the return address is its own. -/
def raiseFault (f : FaultKind) (phase : BitVec 3) (bus : Addr) (s : State) : Result :=
  takeFault f phase bus s.pc s

/-- A fault was entered since the cause register was last idle (60_exceptions.md R386: on a fault it holds
0x1E00 with the vector, and no completed call word begins so: 44_coprocessor.md R301; log 35). -/
def State.faultEntered (s : State) : Bool := s.cause.extractLsb' 8 8 == 0x1E#8

/-- The link register RETE uses at a level: the level less one (44_coprocessor.md R297, 60_exceptions.md R353). -/
def linkOfLevel : Fin 8 → Fin 7
  | 0 => 0
  | 1 => 0
  | 2 => 1
  | 3 => 2
  | 4 => 3
  | 5 => 4
  | 6 => 5
  | 7 => 6

/-- `RETE` at a level above 0 (44_coprocessor.md R297): program counter, status register less bit 13, and level come back
from the link register of the current level. -/
def returnFromException (s : State) : Result :=
  if s.level = 0 then .refused .reteOutsideHandler
  else
    let k := s.links[linkOfLevel s.level]
    .next (({ s with level := k.level }.setReg .sr (dropEA k.sr)).setPc k.addr)

/-- The state after hardware reset with a given memory image and no device (70_reset_and_hazards.md R420): status register,
level, wait flag and latches clear, the program counter from vector 0x00; what has no reset value holds what `State.reset`
names. -/
def hardwareReset (memInit : Memory) : State :=
  { State.reset with mem := memInit }.setPc (memInit.readWord 0 ++ memInit.readWord 1)

end Sys2Proof.Machine
end

