-- ==== Sys2Proof/Machine/Flags.lean ====
section
/-! DEFINITION. The condition flags, the sixteen conditions, and the arithmetic and logic operations with the flags each
computes (10_state.md R30 to R34, 40_common_execution.md R143, R159, 41_alu.md R181 to R183). -/

namespace Sys2Proof.Machine

/-- The four condition flags. -/
structure Flags where
  n : Bool
  z : Bool
  c : Bool
  v : Bool
  deriving DecidableEq, Repr

/-- The flags of the status register: Z bit 0, N bit 1, C bit 2, V bit 3 (10_state.md R30). -/
def State.flags (s : State) : Flags :=
  { n := s.regs.sr.getLsbD 1, z := s.regs.sr.getLsbD 0, c := s.regs.sr.getLsbD 2, v := s.regs.sr.getLsbD 3 }

/-- The flags in their places in the low four bits of the status register (10_state.md R30). -/
def Flags.bits (f : Flags) : BitVec 4 :=
  BitVec.ofBool f.v ++ BitVec.ofBool f.c ++ BitVec.ofBool f.n ++ BitVec.ofBool f.z

/-- Write the four flags; no other bit of `sr` is touched (40_common_execution.md R159). -/
def State.setFlags (s : State) (f : Flags) : State :=
  s.setReg .sr (s.regs.sr.extractLsb' 4 12 ++ f.bits)

/-- The flags of four bits N, Z, C, V from bit 3 down: the form of the free value `Config.freeFlags` (log 11). -/
def Flags.ofFree (b : BitVec 4) : Flags :=
  { n := b.getLsbD 3, z := b.getLsbD 2, c := b.getLsbD 1, v := b.getLsbD 0 }

/-- `CondHolds` (40_common_execution.md R143). -/
def condHolds (c : Cond) (f : Flags) : Bool :=
  match c with
  | .al => true
  | .eq => f.z
  | .ne => !f.z
  | .cs => f.c
  | .cc => !f.c
  | .ns => f.n
  | .nc => !f.n
  | .os => f.v
  | .oc => !f.v
  | .hi => f.c && !f.z
  | .lo => !f.c || f.z
  | .ge => f.n == f.v
  | .lt => f.n != f.v
  | .gt => !f.z && f.n == f.v
  | .le => f.z || f.n != f.v
  | .nv => false

/-- Run `k` when the condition holds on the flags of `s`, the state before the instruction; otherwise only the advance of
`pl` happens (40_common_execution.md R144). -/
def conditional (c : Cond) (s : State) (k : Result) : Result :=
  if condHolds c s.flags then k else .next s.advance

/-! ### The operations -/

/-- The seven operations of the ALU, selected by Opcode[2:0] (30_encoding.md R112). -/
inductive AluOp where
  | add | adc | sub | sbc | and | orr | xor
  deriving DecidableEq, Repr

/-- The signed result leaves -32768 .. 32767 (41_alu.md R181, R182). -/
def signedOverflow (x : Int) : Bool := decide (x < -32768) || decide (x > 32767)

/-- `Add(a, b, cin)` (41_alu.md R181), over exact integers. -/
def addWithCarry (a b : Word) (cin : Bool) : Word × Flags :=
  let u : Nat := a.toNat + b.toNat + cin.toNat
  let res := BitVec.ofNat 16 u
  (res, { n := res.getLsbD 15, z := res == 0, c := decide (u > 0xFFFF)
          v := signedOverflow (a.toInt + b.toInt + cin.toNat) })

/-- `Sub(a, b, bin)` (41_alu.md R182), over exact integers; C is NOT borrow. -/
def subWithBorrow (a b : Word) (bin : Bool) : Word × Flags :=
  let u : Int := (a.toNat : Int) - b.toNat - bin.toNat
  let res := BitVec.ofInt 16 u
  (res, { n := res.getLsbD 15, z := res == 0, c := decide (u ≥ 0)
          v := signedOverflow (a.toInt - b.toInt - bin.toNat) })

/-- The logic flags of a result (41_alu.md R183): N and Z describe it, C and V are cleared. -/
def logicFlags (res : Word) : Word × Flags :=
  (res, { n := res.getLsbD 15, z := res == 0, c := false, v := false })

/-- The result and the flags of an operation on its operands and the carry flag (41_alu.md R181 to R190). -/
def aluOp (op : AluOp) (a b : Word) (cin : Bool) : Word × Flags :=
  match op with
  | .add => addWithCarry a b false
  | .adc => addWithCarry a b cin
  | .sub => subWithBorrow a b false
  | .sbc => subWithBorrow a b (!cin)
  | .and => logicFlags (a &&& b)
  | .orr => logicFlags (a ||| b)
  | .xor => logicFlags (a ^^^ b)

/-- `FlagUpdate` (40_common_execution.md R159). The reserved selector never comes here: the instruction is refused. -/
def flagUpdate (sel : StatusSel) (alu shf : Flags) (s : State) : State :=
  match sel with
  | .noUpdate => s
  | .fromAlu => s.setFlags alu
  | .fromShift => s.setFlags shf
  | .reserved => s

end Sys2Proof.Machine
end

