-- ==== Sys2Proof/Machine/Operands.lean ====
section
/-! DEFINITION. Operand forms: the short immediate, the shifter and its count, the data shift, the register pairs and
address arithmetic (20_memory.md R80, 30_encoding.md R110, 40_common_execution.md R145 to R161). The state they are read
from is the one after fetch, `s.advance`. -/

namespace Sys2Proof.Machine

/-! ### Immediates -/

/-- `Ext8` (30_encoding.md R110): below 0x80 both extensions agree; from 0x80 up the choice is the implementation's
(log 10). -/
def ext8 (imm8 : BitVec 8) : Word :=
  if imm8.getLsbD 7 && Config.shortImmSigned then 0xFF#8 ++ imm8 else 0x00#8 ++ imm8

/-! ### The shifter -/

/-- What the shifter gives: the value, the carry out, and the overflow indication (40_common_execution.md R149). -/
structure ShiftOut where
  value    : Word
  carry    : Bool
  overflow : Bool
  deriving DecidableEq, Repr

/-- The n + 1 bits `v[15 : 15 - n]` are not all equal: the sign changes during a left shift by n
(40_common_execution.md R152). -/
def signChanges (v : Word) (n : Nat) : Bool :=
  let top := v.sshiftRight (15 - n)
  !(top == 0 || top == 0xFFFF#16)

/-- The 17-bit rotate to the left of carry over value (40_common_execution.md R154). -/
def rotateLeft17 (v : Word) (n : Nat) (cin : Bool) : BitVec 17 :=
  let w := BitVec.ofBool cin ++ v
  (w <<< n) ||| (w >>> (17 - n))

/-- The 17-bit rotate to the right of carry over value (40_common_execution.md R155). -/
def rotateRight17 (v : Word) (n : Nat) (cin : Bool) : BitVec 17 :=
  let w := BitVec.ofBool cin ++ v
  (w >>> n) ||| (w <<< (17 - n))

/-- `Shift(v, ST, n, cin)` for a count of 0 to 15 (40_common_execution.md R149 to R156). A count of 0 changes nothing.
The reserved type never comes here: the instruction is refused. -/
def shiftBy (t : ShiftType) (n : Nat) (v : Word) (cin : Bool) : ShiftOut :=
  if n = 0 then { value := v, carry := cin, overflow := false }
  else
    match t with
    | .nul => { value := v, carry := cin, overflow := false }
    | .lsl => { value := v <<< n, carry := v.getLsbD (16 - n), overflow := false }
    | .lsr => { value := v >>> n, carry := v.getLsbD (n - 1), overflow := false }
    | .asl => { value := v <<< n, carry := v.getLsbD (16 - n), overflow := signChanges v n }
    | .asr => { value := v.sshiftRight n, carry := v.getLsbD (n - 1), overflow := false }
    | .rtl =>
      let w := rotateLeft17 v n cin
      { value := w.extractLsb' 0 16, carry := w.getLsbD 16, overflow := false }
    | .rtr =>
      let w := rotateRight17 v n cin
      { value := w.extractLsb' 0 16, carry := w.getLsbD 16, overflow := false }
    | .reserved => { value := v, carry := cin, overflow := false }

/-- `ShiftCount` (40_common_execution.md R148): the literal, or the value of the named register. -/
def State.shiftCount (s : State) : ShiftAmount → Nat
  | .literal n => n.toNat
  | .register r => (s.readReg r).toNat

/-- The shifter on a value with the shift fields of an instruction. With ST = 000 the count is not used (R156). A register
count above 15 has no stated result: value, carry and overflow are free (R148; log 8). -/
def State.shifted (s : State) (sh : Shift) (v : Word) : ShiftOut :=
  if sh.type = .nul then { value := v, carry := s.flags.c, overflow := false }
  else if s.shiftCount sh.amount ≤ 15 then shiftBy sh.type (s.shiftCount sh.amount) v s.flags.c
  else
    { value := Config.freeShiftResult s.freeCount
      carry := Config.freeShiftCarry s.freeCount
      overflow := Config.freeShiftOverflow s.freeCount }

/-- `ShiftFlags` (40_common_execution.md R158): V is stated for ASL only, and free for every other type (log 9). -/
def State.shiftFlags (s : State) (t : ShiftType) (o : ShiftOut) : Flags :=
  { n := o.value.getLsbD 15
    z := o.value == 0
    c := o.carry
    v := if t = .asl then o.overflow else Config.freeShiftOverflow s.freeCount }

/-- An instruction of the Short Immediate or Register format with ST = 111 is refused (30_encoding.md R118,
40_common_execution.md R157; log 32). -/
def withShiftType (sh : Shift) (k : Result) : Result :=
  if sh.type = .reserved then .refused .reservedShiftType else k

/-- The shift fields are all zero. -/
def noShiftFields (sh : Shift) : Bool := sh == { type := .nul, amount := .literal 0 : Shift }

/-! ### Register pairs and address arithmetic -/

/-- The high register of a pair (10_state.md R23). -/
def pairHigh : Pair → Reg
  | .l => .lh
  | .a => .ah
  | .s => .sh
  | .p => .ph

/-- The low register of a pair (10_state.md R23). -/
def pairLow : Pair → Reg
  | .l => .ll
  | .a => .al
  | .s => .sl
  | .p => .pl

/-- The exact sum of a low word and a signed offset leaves 0 .. 0xFFFF (20_memory.md R80). -/
def offsetOverflows (lo off : Word) : Bool :=
  decide ((lo.toNat : Int) + off.toInt < 0) || decide ((lo.toNat : Int) + off.toInt > 0xFFFF)

/-- `AddOff` raises the Segment Overflow Fault: SR.A = 1 and the sum leaves the segment (20_memory.md R80). -/
def State.offsetTraps (s : State) (lo off : Word) : Bool := s.trapOverflow && offsetOverflows lo off

/-- The low word an offset gives, modulo 2^16 (20_memory.md R80). -/
def State.offsetLow (s : State) (pr : Pair) (off : Word) : Word := s.regs.get (pairLow pr) + off

/-- `EA` of the indirect modes and of post-increment: pair plus offset (40_common_execution.md R161). -/
def State.effectiveAddr (s : State) (pr : Pair) (off : Word) : Addr :=
  busAddr (s.regs.get (pairHigh pr)) (s.offsetLow pr off)

/-- `EA` of the pre-decrement modes: the pair less one, plus offset (40_common_execution.md R161). -/
def State.preDecAddr (s : State) (pr : Pair) (off : Word) : Addr :=
  busAddr (s.regs.get (pairHigh pr)) (s.regs.get (pairLow pr) - 1 + off)

end Sys2Proof.Machine
end

