-- ==== Sys2Proof/Machine/Coproc.lean ====
section
/-! DEFINITION. Coprocessor calls and the exception unit's operations (44_coprocessor.md R290 to R302). `s` is the state
before the instruction; a call completes on `t`, the state after fetch with the call word in the cause register. -/

namespace Sys2Proof.Machine

/-- EXCP (44_coprocessor.md R295): a trap at level 1 through link register 0, returning to the next instruction. -/
def callExcp (v : BitVec 8) (s t : State) : Result :=
  if s.protectedMode && decide (v < 0x80#8) then raiseFault .privilegeViolation 2 0 s
  else if !s.protectedMode && decide (v < 0x60#8) then .refused .excpVectorOutOfRange
  else if s.level ≠ 0 then .refused .excpInsideHandler
  else enterException v 1 0 t.pc t

/-- WAIT (44_coprocessor.md R296). -/
def callWait (t : State) : Result := .next { t with waiting := true }

/-- RSET (44_coprocessor.md R298). -/
def callRset (t : State) : Result :=
  match t.readVector 0x00#8 with
  | none => .fault .vectorBusError
  | some target =>
    .next (({ t with level := 0, waiting := false, pending := Pending.none }.setReg .sr 0).setPc target)

/-- The address half of a link register (44_coprocessor.md R299); nothing for an index of 8 to 15. -/
def State.linkAddr (s : State) (n : BitVec 4) : Option (BitVec 32) :=
  if h : n.toNat < 7 then some (s.links[n.toNat]).addr
  else if n.toNat = 7 then some s.faultMeta.addr
  else none

/-- The status half of a link register (44_coprocessor.md R299); nothing for an index of 8 to 15. -/
def State.linkSr (s : State) (n : BitVec 4) : Option Word :=
  if h : n.toNat < 7 then some (s.links[n.toNat]).sr
  else if n.toNat = 7 then some s.faultMeta.sr
  else none

/-- Write the address half of a link register; the hidden level stays (44_coprocessor.md R300). -/
def State.setLinkAddr (s : State) (n : BitVec 4) (addr : BitVec 32) : State :=
  if h : n.toNat < 7 then { s with links := s.links.set n.toNat { s.links[n.toNat] with addr := addr } }
  else if n.toNat = 7 then { s with faultMeta := { s.faultMeta with addr := addr } }
  else s

/-- Write the status half of a link register; the hidden level stays (44_coprocessor.md R300). -/
def State.setLinkSr (s : State) (n : BitVec 4) (sr : Word) : State :=
  if h : n.toNat < 7 then { s with links := s.links.set n.toNat { s.links[n.toNat] with sr := sr } }
  else if n.toNat = 7 then { s with faultMeta := { s.faultMeta with sr := sr } }
  else s

/-- The link register index of a transfer, parameter bits 3 to 0 (44_coprocessor.md R299). -/
def linkIndex (par : BitVec 8) : BitVec 4 := par.extractLsb' 0 4

/-- ETFR (44_coprocessor.md R299): parameter bit 4 asks for the address, bit 5 for the status word. -/
def callEtfr (par : BitVec 8) (t : State) : Result :=
  match t.linkAddr (linkIndex par), t.linkSr (linkIndex par) with
  | some addr, some sr =>
    let u := if par.getLsbD 4 then (t.setReg .ah (addr.extractLsb' 16 16)).setReg .al (addr.extractLsb' 0 16) else t
    .next (if par.getLsbD 5 then u.setReg .r7 sr else u)
  | _, _ => .refused .linkIndexOutOfRange

/-- ETTR (44_coprocessor.md R300): parameter bit 4 asks for the address, bit 5 for the status word. -/
def callEttr (par : BitVec 8) (t : State) : Result :=
  if linkIndex par < 8#4 then
    let u := if par.getLsbD 4 then t.setLinkAddr (linkIndex par) (t.regs.ah ++ t.regs.al) else t
    .next (if par.getLsbD 5 then u.setLinkSr (linkIndex par) t.regs.r7 else u)
  else .refused .linkIndexOutOfRange

/-- The id is in `COPROCESSORS`: the exception unit, or an optional unit the platform has (00_scope.md R6; by default none,
44_coprocessor.md R302; log 36). -/
def State.unitPresent (s : State) (id : BitVec 4) : Bool := id == 0x1#4 || s.params.optionalUnits.contains id

/-- `CopCall(w)` (44_coprocessor.md R294): existence of the coprocessor, then privilege (R290), then the operation, which
only the exception unit has (00_scope.md R4; log 36). -/
def copCall (w : Word) (s : State) : Result :=
  let t := { s.advance with cause := w }
  let op := w.extractLsb' 8 4
  let par := w.extractLsb' 0 8
  if w.extractLsb' 12 4 = 0x0#4 then .refused .processingUnitCall
  else if !s.unitPresent (w.extractLsb' 12 4) then raiseFault .invalidOpcode 2 0 s
  else if op.getLsbD 3 && s.protectedMode then raiseFault .privilegeViolation 2 0 s
  else if w.extractLsb' 12 4 ≠ 0x1#4 then .refused .optionalUnitCall
  else
    match op.toNat with
    | 0x1 => callExcp par s t
    | 0x9 => callWait t
    | 0xA => returnFromException t
    | 0xB => callRset t
    | 0xC => callEtfr par t
    | 0xD => callEttr par t
    | _ => raiseFault .invalidOpcode 2 0 s

/-- COPI 0x0F (44_coprocessor.md R291): Reg and AF are ignored. -/
def execCopi (f : ImmAlu) (s : State) : Result := conditional f.cond s (copCall f.imm s)

/-- COPI 0x2F (44_coprocessor.md R292): the call word is the extended Imm8; the other fields are ignored, but for ST = 111,
which is refused (30_encoding.md R118; log 32). -/
def execCopiShort (f : ShortAlu) (s : State) : Result :=
  conditional f.cond s (withShiftType f.shift (copCall (ext8 f.imm8) s))

/-- COPR 0x3F (44_coprocessor.md R293): the call word is the register R3; the other fields are ignored (log 25), but for
ST = 111, which is refused (30_encoding.md R118; log 32). -/
def execCopr (f : RegAlu) (s : State) : Result :=
  conditional f.cond s (withShiftType f.shift (copCall (s.advance.readReg f.r3) s))

/-- A COPI whose call word is an operation code of the exception unit over a parameter byte (30_encoding.md R116). -/
def unitCall (code : BitVec 8) (f : UnitCall) (s : State) : Result := conditional f.cond s (copCall (code ++ f.par) s)

/-- EXCP (44_coprocessor.md R295, 45_meta_instructions.md R323). -/
def execExcp (f : UnitCall) (s : State) : Result := unitCall 0x11#8 f s

/-- WAIT (44_coprocessor.md R296, 45_meta_instructions.md R324). -/
def execWait (f : UnitCall) (s : State) : Result := unitCall 0x19#8 f s

/-- RETE (44_coprocessor.md R297, 45_meta_instructions.md R325). -/
def execRete (f : UnitCall) (s : State) : Result := unitCall 0x1A#8 f s

/-- RSET (44_coprocessor.md R298, 45_meta_instructions.md R326). -/
def execRset (f : UnitCall) (s : State) : Result := unitCall 0x1B#8 f s

/-- ETFR (44_coprocessor.md R299, 45_meta_instructions.md R327). -/
def execEtfr (f : UnitCall) (s : State) : Result := unitCall 0x1C#8 f s

/-- ETTR (44_coprocessor.md R300, 45_meta_instructions.md R328). -/
def execEttr (f : UnitCall) (s : State) : Result := unitCall 0x1D#8 f s

end Sys2Proof.Machine
end

