-- ==== Sys2Proof/Machine/Alu.lean ====
section
/-! DEFINITION. The ALU template (41_alu.md R180) and the ALU instructions of the Immediate format (R184 to R194). -/

namespace Sys2Proof.Machine

/-- A write of `dest` that protected mode forbids (10_state.md R42). -/
def State.writeForbidden (s : State) (dest : Reg) : Bool := s.protectedMode && isHighReg dest

/-- The end of the template of 41_alu.md R180, once the operands are known: `s` is the state before the instruction, `shf`
the shifter's flags. The privilege check comes before any effect, the register write before the flag update
(40_common_execution.md R160; log 23). -/
def aluFinish (op : AluOp) (save : Bool) (sel : StatusSel) (dest : Reg) (a b : Word) (shf : Flags) (s : State) : Result :=
  if save && s.writeForbidden dest then raiseFault .privilegeViolation 2 0 s
  else
    let r := aluOp op a b s.flags.c
    .next (flagUpdate sel r.2 shf (if save then s.advance.writeReg dest r.1 else s.advance))

/-- The shifter's flags in the Immediate format, which has no shifter: a shift of type none (40_common_execution.md
R159). -/
def immShiftFlags (a : Word) (s : State) : Flags :=
  s.shiftFlags .nul { value := a, carry := s.flags.c, overflow := false }

/-- An ALU instruction of the Immediate format (41_alu.md R180, 40_common_execution.md R145). -/
def aluImm (op : AluOp) (save : Bool) (f : ImmAlu) (s : State) : Result :=
  conditional f.cond s <|
    if f.sel = .reserved then .refused .reservedStatusSelect
    else
      let a := s.advance.readReg f.reg
      aluFinish op save f.sel f.reg a f.imm (immShiftFlags a s) s

/-- The ALU forms of LOAD (41_alu.md R191, R202, R213): no flag, AF ignored. -/
def loadValue (dest : Reg) (v : Word) (s : State) : Result :=
  if s.writeForbidden dest then raiseFault .privilegeViolation 2 0 s else .next (s.advance.writeReg dest v)

/-- ADDI 0x00 (41_alu.md R184). -/
def execAddi (f : ImmAlu) (s : State) : Result := aluImm .add true f s

/-- ADCI 0x01 (41_alu.md R185). -/
def execAdci (f : ImmAlu) (s : State) : Result := aluImm .adc true f s

/-- SUBI 0x02 (41_alu.md R186). -/
def execSubi (f : ImmAlu) (s : State) : Result := aluImm .sub true f s

/-- SBCI 0x03 (41_alu.md R187). -/
def execSbci (f : ImmAlu) (s : State) : Result := aluImm .sbc true f s

/-- ANDI 0x04 (41_alu.md R188). -/
def execAndi (f : ImmAlu) (s : State) : Result := aluImm .and true f s

/-- ORRI 0x05 (41_alu.md R189). -/
def execOrri (f : ImmAlu) (s : State) : Result := aluImm .orr true f s

/-- XORI 0x06 (41_alu.md R190). -/
def execXori (f : ImmAlu) (s : State) : Result := aluImm .xor true f s

/-- LOAD 0x07 (41_alu.md R191). -/
def execLoadImm (f : ImmAlu) (s : State) : Result := conditional f.cond s (loadValue f.reg f.imm s)

/-- CMPI 0x0A (41_alu.md R192). -/
def execCmpi (f : ImmAlu) (s : State) : Result := aluImm .sub false f s

/-- TSAI 0x0C (41_alu.md R193). -/
def execTsai (f : ImmAlu) (s : State) : Result := aluImm .and false f s

/-- TSXI 0x0E (41_alu.md R194). -/
def execTsxi (f : ImmAlu) (s : State) : Result := aluImm .xor false f s

end Sys2Proof.Machine
end

