-- ==== Sys2Proof/Machine/MemAccess.lean ====
section
/-! DEFINITION. STOR and LOAD (42_memory_access.md R230 to R241). `s` is the state before the instruction, `t` the state
after fetch, from which every operand is read. The order of the checks is R241: privilege (phase 2), address arithmetic
(phase 3), the access (phase 4); a fault leaves no effect. -/

namespace Sys2Proof.Machine

/-- Store `data` at pair plus offset (42_memory_access.md R231, R232). -/
def storeWord (pr : Pair) (off data : Word) (s : State) : Result :=
  let t := s.advance
  let ea := t.effectiveAddr pr off
  if t.offsetTraps (t.regs.get (pairLow pr)) off then raiseFault .segmentOverflow 3 0 s
  else if t.busError ea .store then raiseFault .bus 4 ea s
  else .next (t.writeWord ea data)

/-- Store `data` at the decremented pair plus offset; the low register of the pair takes the decrement
(42_memory_access.md R233, R234). -/
def storePreDec (pr : Pair) (off data : Word) (s : State) : Result :=
  let t := s.advance
  let lo := t.regs.get (pairLow pr)
  let ea := t.preDecAddr pr off
  if t.offsetTraps lo (-1) || t.offsetTraps (lo - 1) off then raiseFault .segmentOverflow 3 0 s
  else if t.busError ea .store then raiseFault .bus 4 ea s
  else .next ((t.writeWord ea data).setReg (pairLow pr) (lo - 1))

/-- Load the word at pair plus offset, passed through `g`, into `dest` (42_memory_access.md R235, R236). -/
def loadWord (dest : Reg) (pr : Pair) (off : Word) (g : Word → Word) (s : State) : Result :=
  let t := s.advance
  let ea := t.effectiveAddr pr off
  if s.writeForbidden dest then raiseFault .privilegeViolation 2 0 s
  else if t.offsetTraps (t.regs.get (pairLow pr)) off then raiseFault .segmentOverflow 3 0 s
  else if t.busError ea .load then raiseFault .bus 4 ea s
  else .next (t.writeReg dest (g (t.readWord ea)))

/-- Load the word at pair plus offset, passed through `g`, into `dest`, and increment the low register of the pair
(42_memory_access.md R237, R238). Which write wins when `dest` is that low register is not stated: it is a free value
(log 12). -/
def loadPostInc (dest : Reg) (pr : Pair) (off : Word) (g : Word → Word) (s : State) : Result :=
  let t := s.advance
  let lo := t.regs.get (pairLow pr)
  let ea := t.effectiveAddr pr off
  if s.writeForbidden dest then raiseFault .privilegeViolation 2 0 s
  else if t.offsetTraps lo off || t.offsetTraps lo 1 then raiseFault .segmentOverflow 3 0 s
  else if t.busError ea .load then raiseFault .bus 4 ea s
  else
    .next ((t.writeReg dest (g (t.readWord ea))).setReg (pairLow pr)
      (if dest = pairLow pr then Config.freePostIncrement s.freeCount else lo + 1))

/-- `DataShift` (42_memory_access.md R239): the value alone, no flag. -/
def State.dataShift (s : State) (sh : Shift) (v : Word) : Word := (s.shifted sh v).value

/-- STOR 0x10 (42_memory_access.md R231). -/
def execStorOff (f : ImmMem) (s : State) : Result :=
  conditional f.cond s (storeWord f.pair f.imm (s.advance.readReg f.reg) s)

/-- STOR 0x11 (42_memory_access.md R232). -/
def execStorIdx (f : RegMem) (s : State) : Result :=
  conditional f.cond s <| withShiftType f.shift <|
    storeWord f.pair (s.advance.readReg f.r2) (s.advance.dataShift f.shift (s.advance.readReg f.r1)) s

/-- STOR with pre-decrement 0x12 (42_memory_access.md R233). -/
def execStorPreOff (f : ImmMem) (s : State) : Result :=
  conditional f.cond s (storePreDec f.pair f.imm (s.advance.readReg f.reg) s)

/-- STOR with pre-decrement 0x13 (42_memory_access.md R234). -/
def execStorPreIdx (f : RegMem) (s : State) : Result :=
  conditional f.cond s <| withShiftType f.shift <|
    storePreDec f.pair (s.advance.readReg f.r2) (s.advance.dataShift f.shift (s.advance.readReg f.r1)) s

/-- LOAD 0x14 (42_memory_access.md R235). -/
def execLoadOff (f : ImmMem) (s : State) : Result := conditional f.cond s (loadWord f.reg f.pair f.imm id s)

/-- LOAD 0x15 (42_memory_access.md R236). -/
def execLoadIdx (f : RegMem) (s : State) : Result :=
  conditional f.cond s <| withShiftType f.shift <|
    loadWord f.r1 f.pair (s.advance.readReg f.r2) (s.advance.dataShift f.shift) s

/-- LOAD with post-increment 0x16 (42_memory_access.md R237). -/
def execLoadPostOff (f : ImmMem) (s : State) : Result := conditional f.cond s (loadPostInc f.reg f.pair f.imm id s)

/-- LOAD with post-increment 0x17 (42_memory_access.md R238). -/
def execLoadPostIdx (f : RegMem) (s : State) : Result :=
  conditional f.cond s <| withShiftType f.shift <|
    loadPostInc f.r1 f.pair (s.advance.readReg f.r2) (s.advance.dataShift f.shift) s

end Sys2Proof.Machine
end

