-- ==== Sys2Proof/Machine/AluShort.lean ====
section
/-! DEFINITION. The ALU instructions of the Short Immediate format (41_alu.md R195 to R205): the register is shifted, the
constant is not (40_common_execution.md R146). -/

namespace Sys2Proof.Machine

/-- The end of a shifting ALU instruction: the first operand is `src` shifted (41_alu.md R180). -/
def aluShifted (op : AluOp) (save : Bool) (sel : StatusSel) (sh : Shift) (dest src : Reg) (b : Word) (s : State) : Result :=
  if sel = .reserved then .refused .reservedStatusSelect
  else if sh.type = .reserved then .refused .reservedShiftType
  else
    let o := s.advance.shifted sh (s.advance.readReg src)
    aluFinish op save sel dest o.value b (s.shiftFlags sh.type o) s

/-- An ALU instruction of the Short Immediate format (41_alu.md R180, 40_common_execution.md R146). -/
def aluShort (op : AluOp) (save : Bool) (f : ShortAlu) (s : State) : Result :=
  conditional f.cond s (aluShifted op save f.sel f.shift f.reg f.reg (ext8 f.imm8) s)

/-- ADDI 0x20 (41_alu.md R195). -/
def execAddiShort (f : ShortAlu) (s : State) : Result := aluShort .add true f s

/-- ADCI 0x21 (41_alu.md R196). -/
def execAdciShort (f : ShortAlu) (s : State) : Result := aluShort .adc true f s

/-- SUBI 0x22 (41_alu.md R197). -/
def execSubiShort (f : ShortAlu) (s : State) : Result := aluShort .sub true f s

/-- SBCI 0x23 (41_alu.md R198). -/
def execSbciShort (f : ShortAlu) (s : State) : Result := aluShort .sbc true f s

/-- ANDI 0x24 (41_alu.md R199). -/
def execAndiShort (f : ShortAlu) (s : State) : Result := aluShort .and true f s

/-- ORRI 0x25 (41_alu.md R200). -/
def execOrriShort (f : ShortAlu) (s : State) : Result := aluShort .orr true f s

/-- XORI 0x26 (41_alu.md R201). -/
def execXoriShort (f : ShortAlu) (s : State) : Result := aluShort .xor true f s

/-- LOAD 0x27 (41_alu.md R202): non-zero shift fields are refused. -/
def execLoadShort (f : ShortAlu) (s : State) : Result :=
  conditional f.cond s <|
    if noShiftFields f.shift then loadValue f.reg (ext8 f.imm8) s else .refused .shiftFieldsNotZero

/-- CMPI 0x2A (41_alu.md R203). -/
def execCmpiShort (f : ShortAlu) (s : State) : Result := aluShort .sub false f s

/-- TSAI 0x2C (41_alu.md R204). -/
def execTsaiShort (f : ShortAlu) (s : State) : Result := aluShort .and false f s

/-- TSXI 0x2E (41_alu.md R205). -/
def execTsxiShort (f : ShortAlu) (s : State) : Result := aluShort .xor false f s

end Sys2Proof.Machine
end

