-- ==== Sys2Proof/Machine/AluReg.lean ====
section
/-! DEFINITION. The ALU instructions of the Register format (41_alu.md R206 to R216): R2 is shifted, R3 is the second
operand, R1 the destination (40_common_execution.md R147). -/

namespace Sys2Proof.Machine

/-- An ALU instruction of the Register format (41_alu.md R180, 40_common_execution.md R147). -/
def aluReg (op : AluOp) (save : Bool) (f : RegAlu) (s : State) : Result :=
  conditional f.cond s (aluShifted op save f.sel f.shift f.r1 f.r2 (s.advance.readReg f.r3) s)

/-- ADDR 0x30 (41_alu.md R206). -/
def execAddr (f : RegAlu) (s : State) : Result := aluReg .add true f s

/-- ADCR 0x31 (41_alu.md R207). -/
def execAdcr (f : RegAlu) (s : State) : Result := aluReg .adc true f s

/-- SUBR 0x32 (41_alu.md R208). -/
def execSubr (f : RegAlu) (s : State) : Result := aluReg .sub true f s

/-- SBCR 0x33 (41_alu.md R209). -/
def execSbcr (f : RegAlu) (s : State) : Result := aluReg .sbc true f s

/-- ANDR 0x34 (41_alu.md R210). -/
def execAndr (f : RegAlu) (s : State) : Result := aluReg .and true f s

/-- ORRR 0x35 (41_alu.md R211). -/
def execOrrr (f : RegAlu) (s : State) : Result := aluReg .orr true f s

/-- XORR 0x36 (41_alu.md R212). -/
def execXorr (f : RegAlu) (s : State) : Result := aluReg .xor true f s

/-- LOAD 0x37 (41_alu.md R213): the source is R3, R2 is not read; non-zero shift fields are refused. -/
def execLoadReg (f : RegAlu) (s : State) : Result :=
  conditional f.cond s <|
    if noShiftFields f.shift then loadValue f.r1 (s.advance.readReg f.r3) s else .refused .shiftFieldsNotZero

/-- CMPR 0x3A (41_alu.md R214). -/
def execCmpr (f : RegAlu) (s : State) : Result := aluReg .sub false f s

/-- TSAR 0x3C (41_alu.md R215). -/
def execTsar (f : RegAlu) (s : State) : Result := aluReg .and false f s

/-- TSXR 0x3E (41_alu.md R216). -/
def execTsxr (f : RegAlu) (s : State) : Result := aluReg .xor false f s

end Sys2Proof.Machine
end

