-- ==== Sys2Proof/Machine/Control.lean ====
section
/-! DEFINITION. LDEA, BRAN, LJSR and BRSR (43_control_flow.md R260 to R268). `s` is the state before the instruction, `t`
the state after fetch. Refusals come first, then privilege (phase 2), then address arithmetic (phase 3). -/

namespace Sys2Proof.Machine

/-- The address arithmetic shared by the eight: the Segment Overflow Fault, or `k` on the state after fetch. -/
def withOffset (pr : Pair) (off : Word) (s : State) (k : State → Result) : Result :=
  if s.advance.offsetTraps (s.advance.regs.get (pairLow pr)) off then raiseFault .segmentOverflow 3 0 s else k s.advance

/-- The pair whose high register is `r` (43_control_flow.md R261). -/
def pairOfHigh : Reg → Option Pair
  | .lh => some .l
  | .ah => some .a
  | .sh => some .s
  | .ph => some .p
  | .sr | .r1 | .r2 | .r3 | .r4 | .r5 | .r6 | .r7 | .ll | .al | .sl | .pl => none

/-- Write both registers of a pair. -/
def State.setPair (s : State) (pr : Pair) (hi lo : Word) : State := (s.setReg (pairHigh pr) hi).setReg (pairLow pr) lo

/-- LDEA into a pair: high register copied, low register plus offset (43_control_flow.md R261, R262). -/
def ldeaInto (dst src : Pair) (off : Word) (s : State) : Result :=
  if s.protectedMode then raiseFault .privilegeViolation 2 0 s
  else withOffset src off s fun t => .next (t.setPair dst (t.regs.get (pairHigh src)) (t.offsetLow src off))

/-- LDEA with its destination as a register field: one that names no pair is refused (43_control_flow.md R261). -/
def ldea (dest : Reg) (src : Pair) (off : Word) (s : State) : Result :=
  match pairOfHigh dest with
  | none => .refused .destinationNotAPair
  | some dst => ldeaInto dst src off s

/-- BRAN: the low register of p only; no privilege check (43_control_flow.md R263, R264). -/
def branch (pr : Pair) (off : Word) (s : State) : Result :=
  if pr = .p then withOffset .p off s fun t => .next (t.setReg .pl (t.offsetLow .p off))
  else .refused .branchPairNotProgramCounter

/-- LJSR: the return address into l, the target into p (43_control_flow.md R265, R266). -/
def jumpSubroutine (src : Pair) (off : Word) (s : State) : Result :=
  if s.protectedMode then raiseFault .privilegeViolation 2 0 s
  else
    withOffset src off s fun t =>
      .next ((t.setPair .l t.regs.ph t.regs.pl).setPair .p (t.regs.get (pairHigh src)) (t.offsetLow src off))

/-- BRSR: the return address into l, the target into pl (43_control_flow.md R267, R268). -/
def branchSubroutine (pr : Pair) (off : Word) (s : State) : Result :=
  if pr ≠ .p then .refused .branchPairNotProgramCounter
  else if s.protectedMode then .refused .brsrInProtectedMode
  else withOffset .p off s fun t => .next ((t.setPair .l t.regs.ph t.regs.pl).setReg .pl (t.offsetLow .p off))

/-- The shift fields of a register-offset control instruction must be zero (43_control_flow.md R260). -/
def unshifted (sh : Shift) (k : Result) : Result :=
  if noShiftFields sh then k else .refused .shiftFieldsNotZero

/-- LDEA 0x18 (43_control_flow.md R261). -/
def execLdeaOff (f : ImmMem) (s : State) : Result := conditional f.cond s (ldea f.reg f.pair f.imm s)

/-- LDEA 0x19 (43_control_flow.md R262). -/
def execLdeaIdx (f : RegMem) (s : State) : Result :=
  conditional f.cond s (unshifted f.shift (ldea f.r1 f.pair (s.advance.readReg f.r2) s))

/-- BRAN 0x1A (43_control_flow.md R263). -/
def execBranOff (f : ImmMem) (s : State) : Result := conditional f.cond s (branch f.pair f.imm s)

/-- BRAN 0x1B (43_control_flow.md R264). -/
def execBranIdx (f : RegMem) (s : State) : Result :=
  conditional f.cond s (unshifted f.shift (branch f.pair (s.advance.readReg f.r2) s))

/-- LJSR 0x1C (43_control_flow.md R265). -/
def execLjsrOff (f : ImmMem) (s : State) : Result := conditional f.cond s (jumpSubroutine f.pair f.imm s)

/-- LJSR 0x1D (43_control_flow.md R266). -/
def execLjsrIdx (f : RegMem) (s : State) : Result :=
  conditional f.cond s (unshifted f.shift (jumpSubroutine f.pair (s.advance.readReg f.r2) s))

/-- BRSR 0x1E (43_control_flow.md R267). -/
def execBrsrOff (f : ImmMem) (s : State) : Result := conditional f.cond s (branchSubroutine f.pair f.imm s)

/-- BRSR 0x1F (43_control_flow.md R268). -/
def execBrsrIdx (f : RegMem) (s : State) : Result :=
  conditional f.cond s (unshifted f.shift (branchSubroutine f.pair (s.advance.readReg f.r2) s))

end Sys2Proof.Machine
end

