-- ==== Sys2Proof/Machine/Meta.lean ====
section
/-! DEFINITION. The assembler names that spec/opcode_table.json lists as rows (45_meta_instructions.md R320 to R322, R330 to
R332): each means what the instruction it assembles to means. -/

namespace Sys2Proof.Machine

/-- NOOP is ADDI[N] sr, #0 (45_meta_instructions.md R320). -/
def execNoop (s : State) : Result := aluImm .add true { reg := .sr, imm := 0, sel := .noUpdate, cond := .al } s

/-- RETS is LDEA p, (#0, l) (45_meta_instructions.md R321). -/
def execRets (s : State) : Result := conditional .al s (ldeaInto .p .l 0 s)

/-- LJMP with an immediate offset is LDEA p, (#off, pair) (45_meta_instructions.md R322). -/
def execLjmpOff (f : JumpOff) (s : State) : Result := conditional f.cond s (ldeaInto .p f.pair f.imm s)

/-- LJMP with a register offset is LDEA p, (rS, pair) (45_meta_instructions.md R322). -/
def execLjmpIdx (f : JumpIdx) (s : State) : Result :=
  conditional f.cond s (unshifted f.shift (ldeaInto .p f.pair (s.advance.readReg f.r2) s))

/-- SHFT is ADDI[S] rD, #0, shift (45_meta_instructions.md R330); here with its count in a register. -/
def execShft (f : ShiftOne) (s : State) : Result :=
  conditional f.cond s (aluShifted .add true .fromShift f.shift f.reg f.reg (ext8 0) s)

/-- SHFI is ADDI[S] rD, #0, shift (45_meta_instructions.md R331); here with a literal count. -/
def execShfi (f : ShiftOne) (s : State) : Result :=
  conditional f.cond s (aluShifted .add true .fromShift f.shift f.reg f.reg (ext8 0) s)

/-- SHFR is ADDR[S] rD, rS1, rS2, shift (45_meta_instructions.md R332): the value is the shifted R2 plus R3, the flags are
the shifter's. -/
def execShfr (f : ShiftReg) (s : State) : Result :=
  conditional f.cond s (aluShifted .add true .fromShift f.shift f.r1 f.r2 (s.advance.readReg f.r3) s)

end Sys2Proof.Machine
end

