-- ==== Sys2Proof/Machine/Undocumented.lean ====
section
/-! DEFINITION. The twelve undocumented opcodes (46_undocumented.md R340 to R344; log 11). The parameter `UNDOC_OPS` chooses:
under `test` each is the ALU instruction with Opcode[2:0] and the write-back off (R341 to R343); under `refuse`, the default,
the model takes the reading R344 gives for a proof that needs only what the source states as fact: they do not trap, they
write no general register and no memory, `pl` advances, and the flags receive any value when AF is not 00. -/

namespace Sys2Proof.Machine

/-- The effect of an undocumented opcode whose fields are not reserved, its results not stated (46_undocumented.md R344). -/
def undocumentedEffect (sel : StatusSel) (s : State) : Result :=
  if sel = .reserved then .refused .reservedStatusSelect
  else if sel = .noUpdate then .next s.advance
  else .next (s.advance.setFlags (Flags.ofFree (Config.freeFlags s.freeCount)))

/-- An undocumented opcode of the Immediate format; `op` is the operation of Opcode[2:0] (46_undocumented.md R341, R344). -/
def undocumentedImm (op : AluOp) (f : ImmAlu) (s : State) : Result :=
  match s.params.undocOps with
  | .test => aluImm op false f s
  | .refuse => conditional f.cond s (undocumentedEffect f.sel s)

/-- An undocumented opcode of the Short Immediate format (46_undocumented.md R342, R344). -/
def undocumentedShort (op : AluOp) (f : ShortAlu) (s : State) : Result :=
  match s.params.undocOps with
  | .test => aluShort op false f s
  | .refuse => conditional f.cond s (withShiftType f.shift (undocumentedEffect f.sel s))

/-- An undocumented opcode of the Register format; R1 is neither read nor written (46_undocumented.md R343, R344). -/
def undocumentedReg (op : AluOp) (f : RegAlu) (s : State) : Result :=
  match s.params.undocOps with
  | .test => aluReg op false f s
  | .refuse => conditional f.cond s (withShiftType f.shift (undocumentedEffect f.sel s))

/-- 0x08 (46_undocumented.md R341, R344; 41_alu.md R184 without write-back). -/
def execUndoc08 (f : ImmAlu) (s : State) : Result := undocumentedImm .add f s

/-- 0x09 (46_undocumented.md R341, R344; 41_alu.md R185 without write-back). -/
def execUndoc09 (f : ImmAlu) (s : State) : Result := undocumentedImm .adc f s

/-- 0x0B (46_undocumented.md R341, R344; 41_alu.md R187 without write-back). -/
def execUndoc0B (f : ImmAlu) (s : State) : Result := undocumentedImm .sbc f s

/-- 0x0D (46_undocumented.md R341, R344; 41_alu.md R189 without write-back). -/
def execUndoc0D (f : ImmAlu) (s : State) : Result := undocumentedImm .orr f s

/-- 0x28 (46_undocumented.md R342, R344; 41_alu.md R195 without write-back). -/
def execUndoc28 (f : ShortAlu) (s : State) : Result := undocumentedShort .add f s

/-- 0x29 (46_undocumented.md R342, R344; 41_alu.md R196 without write-back). -/
def execUndoc29 (f : ShortAlu) (s : State) : Result := undocumentedShort .adc f s

/-- 0x2B (46_undocumented.md R342, R344; 41_alu.md R198 without write-back). -/
def execUndoc2B (f : ShortAlu) (s : State) : Result := undocumentedShort .sbc f s

/-- 0x2D (46_undocumented.md R342, R344; 41_alu.md R200 without write-back). -/
def execUndoc2D (f : ShortAlu) (s : State) : Result := undocumentedShort .orr f s

/-- 0x38 (46_undocumented.md R343, R344; 41_alu.md R206 without write-back). -/
def execUndoc38 (f : RegAlu) (s : State) : Result := undocumentedReg .add f s

/-- 0x39 (46_undocumented.md R343, R344; 41_alu.md R207 without write-back). -/
def execUndoc39 (f : RegAlu) (s : State) : Result := undocumentedReg .adc f s

/-- 0x3B (46_undocumented.md R343, R344; 41_alu.md R209 without write-back). -/
def execUndoc3B (f : RegAlu) (s : State) : Result := undocumentedReg .sbc f s

/-- 0x3D (46_undocumented.md R343, R344; 41_alu.md R211 without write-back). -/
def execUndoc3D (f : RegAlu) (s : State) : Result := undocumentedReg .orr f s

end Sys2Proof.Machine
end

