-- ==== Sys2Proof/Machine/Dispatch.lean ====
section
/-! DEFINITION. One arm for every instruction. -/

namespace Sys2Proof.Machine

/-- The meaning of an instruction on the state before it, its fetch already made but `pl` not yet advanced
(40_common_execution.md R140 step 5). -/
def exec (i : Instr) (s : State) : Host.Outcome State Fault Refusal :=
  match i with
  | .addi f => Sys2Proof.Machine.execAddi f s
  | .adci f => Sys2Proof.Machine.execAdci f s
  | .subi f => Sys2Proof.Machine.execSubi f s
  | .sbci f => Sys2Proof.Machine.execSbci f s
  | .andi f => Sys2Proof.Machine.execAndi f s
  | .orri f => Sys2Proof.Machine.execOrri f s
  | .xori f => Sys2Proof.Machine.execXori f s
  | .loadImm f => Sys2Proof.Machine.execLoadImm f s
  | .undoc08 f => Sys2Proof.Machine.execUndoc08 f s
  | .undoc09 f => Sys2Proof.Machine.execUndoc09 f s
  | .cmpi f => Sys2Proof.Machine.execCmpi f s
  | .undoc0B f => Sys2Proof.Machine.execUndoc0B f s
  | .tsai f => Sys2Proof.Machine.execTsai f s
  | .undoc0D f => Sys2Proof.Machine.execUndoc0D f s
  | .tsxi f => Sys2Proof.Machine.execTsxi f s
  | .copi f => Sys2Proof.Machine.execCopi f s
  | .storOff f => Sys2Proof.Machine.execStorOff f s
  | .storIdx f => Sys2Proof.Machine.execStorIdx f s
  | .storPreOff f => Sys2Proof.Machine.execStorPreOff f s
  | .storPreIdx f => Sys2Proof.Machine.execStorPreIdx f s
  | .loadOff f => Sys2Proof.Machine.execLoadOff f s
  | .loadIdx f => Sys2Proof.Machine.execLoadIdx f s
  | .loadPostOff f => Sys2Proof.Machine.execLoadPostOff f s
  | .loadPostIdx f => Sys2Proof.Machine.execLoadPostIdx f s
  | .ldeaOff f => Sys2Proof.Machine.execLdeaOff f s
  | .ldeaIdx f => Sys2Proof.Machine.execLdeaIdx f s
  | .branOff f => Sys2Proof.Machine.execBranOff f s
  | .branIdx f => Sys2Proof.Machine.execBranIdx f s
  | .ljsrOff f => Sys2Proof.Machine.execLjsrOff f s
  | .ljsrIdx f => Sys2Proof.Machine.execLjsrIdx f s
  | .brsrOff f => Sys2Proof.Machine.execBrsrOff f s
  | .brsrIdx f => Sys2Proof.Machine.execBrsrIdx f s
  | .addiShort f => Sys2Proof.Machine.execAddiShort f s
  | .adciShort f => Sys2Proof.Machine.execAdciShort f s
  | .subiShort f => Sys2Proof.Machine.execSubiShort f s
  | .sbciShort f => Sys2Proof.Machine.execSbciShort f s
  | .andiShort f => Sys2Proof.Machine.execAndiShort f s
  | .orriShort f => Sys2Proof.Machine.execOrriShort f s
  | .xoriShort f => Sys2Proof.Machine.execXoriShort f s
  | .loadShort f => Sys2Proof.Machine.execLoadShort f s
  | .undoc28 f => Sys2Proof.Machine.execUndoc28 f s
  | .undoc29 f => Sys2Proof.Machine.execUndoc29 f s
  | .cmpiShort f => Sys2Proof.Machine.execCmpiShort f s
  | .undoc2B f => Sys2Proof.Machine.execUndoc2B f s
  | .tsaiShort f => Sys2Proof.Machine.execTsaiShort f s
  | .undoc2D f => Sys2Proof.Machine.execUndoc2D f s
  | .tsxiShort f => Sys2Proof.Machine.execTsxiShort f s
  | .copiShort f => Sys2Proof.Machine.execCopiShort f s
  | .addr f => Sys2Proof.Machine.execAddr f s
  | .adcr f => Sys2Proof.Machine.execAdcr f s
  | .subr f => Sys2Proof.Machine.execSubr f s
  | .sbcr f => Sys2Proof.Machine.execSbcr f s
  | .andr f => Sys2Proof.Machine.execAndr f s
  | .orrr f => Sys2Proof.Machine.execOrrr f s
  | .xorr f => Sys2Proof.Machine.execXorr f s
  | .loadReg f => Sys2Proof.Machine.execLoadReg f s
  | .undoc38 f => Sys2Proof.Machine.execUndoc38 f s
  | .undoc39 f => Sys2Proof.Machine.execUndoc39 f s
  | .cmpr f => Sys2Proof.Machine.execCmpr f s
  | .undoc3B f => Sys2Proof.Machine.execUndoc3B f s
  | .tsar f => Sys2Proof.Machine.execTsar f s
  | .undoc3D f => Sys2Proof.Machine.execUndoc3D f s
  | .tsxr f => Sys2Proof.Machine.execTsxr f s
  | .copr f => Sys2Proof.Machine.execCopr f s
  | .excp f => Sys2Proof.Machine.execExcp f s
  | .wait f => Sys2Proof.Machine.execWait f s
  | .rete f => Sys2Proof.Machine.execRete f s
  | .rset f => Sys2Proof.Machine.execRset f s
  | .etfr f => Sys2Proof.Machine.execEtfr f s
  | .ettr f => Sys2Proof.Machine.execEttr f s
  | .noop => Sys2Proof.Machine.execNoop s
  | .rets => Sys2Proof.Machine.execRets s
  | .ljmpOff f => Sys2Proof.Machine.execLjmpOff f s
  | .ljmpIdx f => Sys2Proof.Machine.execLjmpIdx f s
  | .shft f => Sys2Proof.Machine.execShft f s
  | .shfi f => Sys2Proof.Machine.execShfi f s
  | .shfr f => Sys2Proof.Machine.execShfr f s

end Sys2Proof.Machine
end

