-- ==== Sys2Proof/Machine/Cycle.lean ====
section
/-! DEFINITION. The parts of one step (40_common_execution.md R140): the service point with the interrupts (60_exceptions.md
R368 to R372), fetch (40_common_execution.md R141), and the instruction with its trace (60_exceptions.md R361). -/

namespace Sys2Proof.Machine

/-! ### The service point -/

/-- The latch of a line. -/
def Pending.get (p : Pending) : IrqLine → Bool
  | .line1 => p.line1
  | .line2 => p.line2
  | .line3 => p.line3
  | .line4 => p.line4
  | .line5 => p.line5

/-- Set or clear the latch of a line. -/
def Pending.set (p : Pending) (k : IrqLine) (b : Bool) : Pending :=
  match k with
  | .line1 => { p with line1 := b }
  | .line2 => { p with line2 := b }
  | .line3 => { p with line3 := b }
  | .line4 => { p with line4 := b }
  | .line5 => { p with line5 := b }

/-- The exception level of a line, 7 - k (60_exceptions.md R368). -/
def lineLevel : IrqLine → Fin 8
  | .line1 => 6
  | .line2 => 5
  | .line3 => 4
  | .line4 => 3
  | .line5 => 2

/-- The link register of a line, 6 - k (60_exceptions.md R368). -/
def lineLink : IrqLine → Fin 7
  | .line1 => 5
  | .line2 => 4
  | .line3 => 3
  | .line4 => 2
  | .line5 => 1

/-- The vector of a line, 0x10 times k (60_exceptions.md R368). -/
def lineVector : IrqLine → BitVec 8
  | .line1 => 0x10#8
  | .line2 => 0x20#8
  | .line3 => 0x30#8
  | .line4 => 0x40#8
  | .line5 => 0x50#8

/-- Latch one event, if its line is enabled; else it is lost (60_exceptions.md R369). -/
def State.latchEvent (s : State) (k : IrqLine) : State :=
  if s.lineEnabled k then { s with pending := s.pending.set k true } else s

/-- Take this boundary's events from the platform and latch them (60_exceptions.md R371; log 15). -/
def State.latchEvents (s : State) : State :=
  match s.irqEvents with
  | [] => s
  | now :: later => now.foldl State.latchEvent { s with irqEvents := later }

/-- Take what the platform's devices present from this boundary on (00_scope.md R6 `DeviceRead`; log 17). -/
def State.takeDeviceWords (s : State) : State :=
  match s.deviceEvents with
  | [] => s
  | now :: later => { s with deviceWords := now, deviceEvents := later }

/-- The state at the service point: this boundary's inputs of the platform are taken (60_exceptions.md R371; log 15,
log 17). -/
def State.atBoundary (s : State) : State := s.takeDeviceWords.latchEvents

/-- A line is eligible: pending, enabled, and above the current level (60_exceptions.md R370). -/
def State.eligible (s : State) (k : IrqLine) : Bool :=
  s.pending.get k && s.lineEnabled k && decide (s.level < lineLevel k)

/-- The eligible line of the highest level, the lowest numbered one (60_exceptions.md R371, R372). -/
def State.nextInterrupt (s : State) : Option IrqLine :=
  [IrqLine.line1, .line2, .line3, .line4, .line5].find? s.eligible

/-- A level five event while one is being handled (60_exceptions.md R362). -/
def State.levelFiveConflict (s : State) : Bool :=
  s.pending.line1 && s.lineEnabled .line1 && decide (s.level = 6)

/-- Enter the handler of a line (60_exceptions.md R371, R386). The vector is read at the count of the free values that the
previous instruction ended with (DESIGN CHOICE; log 17). -/
def enterInterrupt (k : IrqLine) (s : State) : Result :=
  enterException (lineVector k) (lineLevel k) (lineLink k) s.pc
    { s with pending := s.pending.set k false, cause := 0x1F#8 ++ lineVector k }

/-- What the service point does on the latched events: an entry that is the whole step, or nothing (60_exceptions.md
R371). -/
def serviceInterrupt (s : State) : Option Result :=
  if s.levelFiveConflict then
    some (takeFault .levelFiveConflict 0 0 s.pc { s with pending := s.pending.set .line1 false })
  else s.nextInterrupt.map fun k => enterInterrupt k s

/-! ### The instruction -/

/-- The address of the instruction's first word (40_common_execution.md R141). -/
def State.fetchAddr (s : State) : Addr := busAddr s.regs.ph s.regs.pl

/-- The address of the instruction's second word: `pl + 1` in the same segment (40_common_execution.md R141). -/
def State.fetchAddrLow (s : State) : Addr := busAddr s.regs.ph (s.regs.pl + 1)

/-- The 32-bit instruction at the program counter, the high word first (40_common_execution.md R141). A step reads it before
the counter of the free values moves on, which matters only at a device address nothing is presented for (DESIGN CHOICE;
log 17). -/
def State.fetchWord (s : State) : InstrWord := s.readWord s.fetchAddr ++ s.readWord s.fetchAddrLow

/-- The bytes of that instruction, in the order memory holds them. -/
def State.fetchBytes (s : State) : List Byte := wordBytes s.fetchWord

/-- The fault of the fetch at this state, with its phase and bus address: alignment, the two reads, the overflow of the
program counter, in that order (40_common_execution.md R141, 60_exceptions.md R367). -/
def State.fetchFault (s : State) : Option (FaultKind × BitVec 3 × Addr) :=
  if s.regs.pl.getLsbD 0 then some (.alignment, 0, 0)
  else if s.busError s.fetchAddr .fetch then some (.bus, 0, s.fetchAddr)
  else if s.busError s.fetchAddrLow .fetch then some (.bus, 1, s.fetchAddrLow)
  else if s.trapOverflow && s.regs.pl == 0xFFFE#16 then some (.segmentOverflow, 1, 0)
  else none

/-- The cause register when no exception is pending (60_exceptions.md R386: 0x1000 or 0x0000; log 6). -/
def causeIdle : Word := if Config.causeIdleNamesExceptionUnit then 0x1000#16 else 0x0000#16

/-- The state in which an instruction begins: no exception is pending, and the free values are drawn afresh (log 6, 7). -/
def State.beginInstr (s : State) : State := { s with cause := causeIdle, freeCount := s.freeCount + 1 }

/-- After the instruction: the Instruction Trace Fault, when trace mode was on before it and it entered no fault of its own
(60_exceptions.md R361). -/
def traceAfter (traced : Bool) (r : Result) : Result :=
  match r with
  | .next t => if traced && !t.faultEntered then takeFault .trace 5 0 t.pc t else .next t
  | .fault e => .fault e
  | .refused e => .refused e

/-- One instruction: fetch, decode, execute, trace (40_common_execution.md R140 steps 3 to 6). DESIGN CHOICE: the instruction
is fetched at the count of the free values that the previous instruction ended with, so a fetch from a device address nothing
is presented for gives the word that instruction's own reads of the address gave, or a service-point read of a vector there
(log 17). -/
def runInstruction (s : State) : Result :=
  match s.beginInstr.fetchFault with
  | some (f, phase, bus) => raiseFault f phase bus s.beginInstr
  | none => traceAfter s.traceMode (exec (decodeWord s.fetchWord) s.beginInstr)

/-- One step: the service point, then the wait or the instruction (40_common_execution.md R140). -/
def cycle (s : State) : Result :=
  let t := s.atBoundary
  match serviceInterrupt t with
  | some r => r
  | none => if t.waiting then .next t else runInstruction t

/-- Put the two words of an instruction into plain memory at the program counter, bit 31 of `w` the top bit of the high word
(log 38); a device mapped there gives way. -/
def State.placeInstr (s : State) (w : InstrWord) : State :=
  { s with
    params := { s.params with
      devices := s.params.devices.filter fun r => !(r.covers s.fetchAddr || r.covers s.fetchAddrLow) }
    mem := (s.mem.writeWord s.fetchAddr (w.extractLsb' 16 16)).writeWord s.fetchAddrLow (w.extractLsb' 0 16) }

end Sys2Proof.Machine
end

