-- ==== Sys2Proof/Machine/Step.lean ====
section
/-! DEFINITION. The step of the machine, and the placing of an instruction where it fetches. -/

namespace Sys2Proof.Machine

/-- One step of the machine (40_common_execution.md R140). -/
def step (s : State) : Host.Outcome State Fault Refusal := cycle s

/-- `s` with the instruction word `w` (numbered as spec/opcode_table.json numbers bits; bits from `nbits` up are zero) at the
program counter, and nothing that would keep the very next step from fetching it: no wait, no interrupt, no device there
(log 39). -/
def State.withFetchWord (s : State) (nbits w : Nat) : State :=
  { s.placeInstr (BitVec.ofNat 32 (w % 2 ^ nbits)) with waiting := false, pending := Pending.none, irqEvents := [] }

end Sys2Proof.Machine
end

