-- ==== Sys2Proof/Safety.lean ====
section
/-! DEFINITION. The terms the claims use: the invariant of the machine, what a frame keeps, and what it is to complete an
instruction, to enter an exception, to take a fault. -/

namespace Sys2Proof.Machine

/-! ### The invariant -/

/-- Memory is in its canonical form, and the status register stores no bit 13 (10_state.md R38). -/
structure State.Inv (s : State) : Prop where
  memory : s.mem.wf = true
  noStoredEA : s.regs.sr.getLsbD 13 = false

/-! ### Frames -/

/-- Every register outside the list is unchanged. -/
def regsKept (changed : List Reg) (s t : State) : Prop := ∀ r, r ∉ changed → t.regs.get r = s.regs.get r

/-- Every byte of memory reads as before, and nothing was sent to a device. -/
structure memoryKept (s t : State) : Prop where
  bytes : ∀ a, t.mem.readByte a = s.mem.readByte a
  devices : t.deviceWrites = s.deviceWrites

/-- Every byte of memory but the two of the word at `w` reads as before. -/
def memoryKeptOutside (w : Addr) (s t : State) : Prop :=
  ∀ a, a ≠ 2 * w.toNat → a ≠ 2 * w.toNat + 1 → t.mem.readByte a = s.mem.readByte a

/-- The platform's inputs, the parameters and the model's own counter are unchanged. -/
structure InputsKept (s t : State) : Prop where
  irqEvents : t.irqEvents = s.irqEvents
  busErrors : t.busErrors = s.busErrors
  params : t.params = s.params
  deviceWords : t.deviceWords = s.deviceWords
  deviceEvents : t.deviceEvents = s.deviceEvents
  freeCount : t.freeCount = s.freeCount

/-- The exception unit but for its cause register, and the inputs, are unchanged. -/
structure UnitKeptButCause (s t : State) : Prop where
  level : t.level = s.level
  waiting : t.waiting = s.waiting
  pending : t.pending = s.pending
  links : t.links = s.links
  faultMeta : t.faultMeta = s.faultMeta
  inputs : InputsKept s t

/-- The whole exception unit, and the inputs, are unchanged. -/
structure UnitKept (s t : State) : Prop where
  rest : UnitKeptButCause s t
  cause : t.cause = s.cause

/-! ### Flags -/

/-- The flags in the low four bits of a word. -/
def flagsOfWord (w : Word) : Flags :=
  { n := w.getLsbD 1, z := w.getLsbD 0, c := w.getLsbD 2, v := w.getLsbD 3 }

/-- The flags after an update: as before, the operation's, or the shifter's, of which V is stated for ASL only
(40_common_execution.md R158, R159). -/
structure FlagsSelected (sel : StatusSel) (alu : Flags) (type : ShiftType) (o : ShiftOut) (before after : Flags) :
    Prop where
  keep : sel = .noUpdate → after = before
  fromAlu : sel = .fromAlu → after = alu
  fromShift : sel = .fromShift →
    after.n = o.value.getLsbD 15 ∧ after.z = decide (o.value = 0) ∧ after.c = o.carry ∧
      (type = .asl → after.v = o.overflow)

/-! ### What an instruction leaves -/

/-- The program counter has gone past the instruction. -/
def movedOn (s t : State) : Prop := t.regs.pl = s.regs.pl + 2

/-- `dest` was written with `v` as 10_state.md R42 says: a plain register takes the word; `sr` takes the low byte in
protected mode, and all but bit 13 in supervisor mode. -/
structure WrittenTo (dest : Reg) (v : Word) (s t : State) : Prop where
  plain : dest ≠ .sr → t.regs.get dest = v
  statusLow : dest = .sr → t.regs.sr.extractLsb' 0 8 = v.extractLsb' 0 8
  statusHighProtected : dest = .sr → s.protectedMode = true → t.regs.sr.extractLsb' 8 8 = s.regs.sr.extractLsb' 8 8
  statusHigh : dest = .sr → s.protectedMode = false →
    ∀ i, 8 ≤ i → i < 16 → t.regs.sr.getLsbD i = (v.getLsbD i && decide (i ≠ 13))

/-- A saving ALU instruction completed: the result is in `dest`, the flags are as AF selects, nothing else changed. -/
structure AluSaved (sel : StatusSel) (dest : Reg) (r : Word × Flags) (type : ShiftType) (o : ShiftOut) (s t : State) :
    Prop where
  result : dest ≠ .sr → t.regs.get dest = r.1
  flags : dest ≠ .sr → FlagsSelected sel r.2 type o s.flags t.flags
  control : dest ≠ .sr → t.regs.sr.extractLsb' 4 12 = s.regs.sr.extractLsb' 4 12
  statusReserved : dest = .sr → t.regs.sr.extractLsb' 4 4 = r.1.extractLsb' 4 4
  statusHighProtected : dest = .sr → s.protectedMode = true → t.regs.sr.extractLsb' 8 8 = s.regs.sr.extractLsb' 8 8
  statusHigh : dest = .sr → s.protectedMode = false →
    ∀ i, 8 ≤ i → i < 16 → t.regs.sr.getLsbD i = (r.1.getLsbD i && decide (i ≠ 13))
  statusFlags : dest = .sr → FlagsSelected sel r.2 type o (flagsOfWord r.1) t.flags
  next : dest ≠ .pl → movedOn s t
  regs : regsKept [dest, .sr, .pl] s t
  memory : memoryKept s t
  unit : UnitKept s t

/-- A test instruction completed: the flags are as AF selects, nothing else changed. -/
structure AluTested (sel : StatusSel) (r : Word × Flags) (type : ShiftType) (o : ShiftOut) (s t : State) : Prop where
  flags : FlagsSelected sel r.2 type o s.flags t.flags
  control : t.regs.sr.extractLsb' 4 12 = s.regs.sr.extractLsb' 4 12
  next : movedOn s t
  regs : regsKept [.sr, .pl] s t
  memory : memoryKept s t
  unit : UnitKept s t

/-- A LOAD completed: `dest` holds `v`, no flag changed unless `dest` is `sr`, nothing else changed. -/
structure Loaded (dest : Reg) (v : Word) (s t : State) : Prop where
  value : WrittenTo dest v s t
  next : dest ≠ .pl → movedOn s t
  regs : regsKept [dest, .pl] s t
  memory : memoryKept s t
  unit : UnitKept s t

/-- A LOAD with post-increment completed. Where `dest` is the register that is incremented, its value is left open. -/
structure LoadedPostInc (dest : Reg) (pair : Pair) (v : Word) (s t : State) : Prop where
  value : dest ≠ pairLow pair → WrittenTo dest v s t
  increment : dest ≠ pairLow pair → t.regs.get (pairLow pair) = s.advance.regs.get (pairLow pair) + 1
  next : dest ≠ .pl → pair ≠ .p → movedOn s t
  regs : regsKept [dest, pairLow pair, .pl] s t
  memory : memoryKept s t
  unit : UnitKept s t

/-- A store of `v` at `w`: in plain memory the word there is `v` and no other byte changes; at a device address the device is
sent `v` and memory keeps every byte (20_memory.md R72, R76). -/
structure StoredAt (w : Addr) (v : Word) (s t : State) : Prop where
  value : s.isDevice w = false → t.mem.readWord w = v
  memory : memoryKeptOutside w s t
  quiet : s.isDevice w = false → t.deviceWrites = s.deviceWrites
  sent : s.isDevice w = true → t.mem = s.mem ∧ t.deviceWrites = { addr := w, value := v } :: s.deviceWrites

/-- A STOR completed: `v` is stored at `w`, nothing else changed. -/
structure Stored (w : Addr) (v : Word) (s t : State) : Prop where
  stored : StoredAt w v s t
  next : movedOn s t
  regs : regsKept [.pl] s t
  unit : UnitKept s t

/-- A STOR with pre-decrement completed: `v` is stored at `w`, the low register of the pair is one less, nothing else
changed. -/
structure StoredPreDec (pair : Pair) (w : Addr) (v : Word) (s t : State) : Prop where
  stored : StoredAt w v s t
  decrement : t.regs.get (pairLow pair) = s.advance.regs.get (pairLow pair) - 1
  next : pair ≠ .p → movedOn s t
  regs : regsKept [pairLow pair, .pl] s t
  unit : UnitKept s t

/-- An instruction changed registers only, and of those only the ones named. -/
structure OnlyRegs (changed : List Reg) (s t : State) : Prop where
  regs : regsKept changed s t
  memory : memoryKept s t
  unit : UnitKept s t

/-! ### Exceptions -/

/-- The vector can be read: the platform signals no bus error on either of its words (20_memory.md R78). -/
def State.vectorReadable (s : State) (id : BitVec 8) : Prop :=
  s.busError (vectorAddr id) .vector = false ∧ s.busError (vectorAddr id + 1) .vector = false

/-- The words of a vector, high word first (20_memory.md R77, R78). -/
def State.vectorTarget (s : State) (id : BitVec 8) : BitVec 32 :=
  s.readWord (vectorAddr id) ++ s.readWord (vectorAddr id + 1)

/-- An exception was entered from `s` (60_exceptions.md R354). -/
structure Entered (vector : BitVec 8) (newLevel : Fin 8) (link : Fin 7) (ret : BitVec 32) (s t : State) : Prop where
  target : t.pc = s.vectorTarget vector
  level : t.level = newLevel
  waiting : t.waiting = false
  saved : t.links[link] = { addr := ret, sr := s.srFull, level := s.level }
  others : ∀ k : Fin 7, k ≠ link → t.links[k] = s.links[k]
  supervisor : t.protectedMode = false
  traceOff : t.traceMode = false
  status : ∀ i, i ≠ 8 → i ≠ 15 → t.regs.sr.getLsbD i = s.regs.sr.getLsbD i
  regs : regsKept [.sr, .ph, .pl] s t
  memory : memoryKept s t
  inputs : InputsKept s t

/-- A first fault was taken from `s`: the entry, and the metadata of 60_exceptions.md R355, R364. -/
structure FaultTaken (f : FaultKind) (phase : BitVec 3) (bus : Addr) (ret : BitVec 32) (s t : State) : Prop where
  entry : Entered (vectorOf f) 7 6 ret s t
  busAddress : t.faultMeta.addr.toNat = bus.toNat
  phase : t.faultMeta.sr.extractLsb' 0 3 = phase
  single : t.faultMeta.sr.getLsbD 3 = false
  code : t.faultMeta.sr.extractLsb' 4 4 = s.faultCode f
  upper : t.faultMeta.sr.extractLsb' 8 8 = 0
  cause : t.cause = 0x1E#8 ++ vectorOf f
  pending : t.pending = s.pending

/-- The Double Fault was taken from `s`, in which a fault is being handled: the entry through vector 0x06, and the metadata,
in which the type of the first fault moves to bits 11 to 8 (60_exceptions.md R363, R364). -/
structure DoubleFaultTaken (phase : BitVec 3) (bus : Addr) (ret : BitVec 32) (s t : State) : Prop where
  entry : Entered 0x06 7 6 ret s t
  busAddress : t.faultMeta.addr.toNat = bus.toNat
  phase : t.faultMeta.sr.extractLsb' 0 3 = phase
  double : t.faultMeta.sr.getLsbD 3 = true
  code : t.faultMeta.sr.extractLsb' 4 4 = s.faultCode .doubleFault
  original : t.faultMeta.sr.extractLsb' 8 4 = s.faultMeta.sr.extractLsb' 4 4
  upper : t.faultMeta.sr.extractLsb' 12 4 = 0
  cause : t.cause = 0x1E06
  pending : t.pending = s.pending

/-- A fault was taken from `s`: at level 7 the Double Fault, at any other level the fault itself (60_exceptions.md R355). -/
structure FaultEntered (f : FaultKind) (phase : BitVec 3) (bus : Addr) (ret : BitVec 32) (s t : State) : Prop where
  first : s.level ≠ 7 → FaultTaken f phase bus ret s t
  double : s.level = 7 → DoubleFaultTaken phase bus ret s t

/-- The result is the fault `f` (inside a fault handler, the Double Fault) taken at the instruction of `s`: nothing of the
instruction remains and the saved address is its own. -/
def faults (f : FaultKind) (phase : BitVec 3) (bus : Addr) (s : State) (r : Result) : Prop :=
  ∃ t, r = .next t ∧ FaultEntered f phase bus s.pc s t

/-- The fault can be taken: the vector it goes through, at level 7 that of the Double Fault, can be read. -/
def State.canFault (s : State) (f : FaultKind) : Prop := s.vectorReadable (if s.level = 7 then 0x06 else vectorOf f)

/-- Nothing is waiting at the boundary: the platform brings nothing, no latch is set, and the machine does not wait. -/
structure State.Quiet (s : State) : Prop where
  noEvent : s.irqEvents = []
  noDeviceEvent : s.deviceEvents = []
  noPending : s.pending = Pending.none
  running : s.waiting = false

/-! ### Conditions -/

/-- The condition an instruction carries (30_encoding.md R108). -/
def condOf : Instr → Cond
  | .addi f | .adci f | .subi f | .sbci f | .andi f | .orri f | .xori f | .loadImm f | .undoc08 f | .undoc09 f
  | .cmpi f | .undoc0B f | .tsai f | .undoc0D f | .tsxi f | .copi f => f.cond
  | .storOff f | .storPreOff f | .loadOff f | .loadPostOff f | .ldeaOff f | .branOff f | .ljsrOff f
  | .brsrOff f => f.cond
  | .storIdx f | .storPreIdx f | .loadIdx f | .loadPostIdx f | .ldeaIdx f | .branIdx f | .ljsrIdx f
  | .brsrIdx f => f.cond
  | .addiShort f | .adciShort f | .subiShort f | .sbciShort f | .andiShort f | .orriShort f | .xoriShort f
  | .loadShort f | .undoc28 f | .undoc29 f | .cmpiShort f | .undoc2B f | .tsaiShort f | .undoc2D f | .tsxiShort f
  | .copiShort f => f.cond
  | .addr f | .adcr f | .subr f | .sbcr f | .andr f | .orrr f | .xorr f | .loadReg f | .undoc38 f | .undoc39 f
  | .cmpr f | .undoc3B f | .tsar f | .undoc3D f | .tsxr f | .copr f => f.cond
  | .excp f | .wait f | .rete f | .rset f | .etfr f | .ettr f => f.cond
  | .noop | .rets => .al
  | .ljmpOff f => f.cond
  | .ljmpIdx f => f.cond
  | .shft f | .shfi f => f.cond
  | .shfr f => f.cond

end Sys2Proof.Machine
end

