-- ==== Sys2Proof/Certificates/Slice0/Obligations.lean ====
section
/-! DEFINITION. The statements for the provers: the numbered rules of spec/ in terms of the model. Each docstring names the
rules it formalises, and the log entry where it rests on a choice of the model or of the spec. -/

open Sys2Proof Sys2Proof.Machine

/-! ### Encoding -/

/-- Words written out from the encoding tables of 30_encoding.md and the tables of 95_test_vectors.md decode to the
instruction they stand for, one or more of every format and family. Which words have an assembler name: log 33; how the
table numbers a word's bits: log 38. -/
def Obligations.SampleWordsDecode : Prop :=
  decodeTableWord 32 0x00401910 = some (.addi { reg := .r1, imm := 100, sel := .fromAlu, cond := .al }) ∧
  decodeTableWord 32 0x28A00010 = some (.cmpi { reg := .r2, imm := 0x8000, sel := .fromAlu, cond := .al }) ∧
  decodeTableWord 32 0x50C00410 = some (.loadOff { reg := .r3, imm := 16, pair := .a, cond := .al }) ∧
  decodeTableWord 32 0x413FFFA0 = some (.storOff { reg := .r4, imm := 0xFFFE, pair := .s, cond := .al }) ∧
  decodeTableWord 32 0x89016490 =
    some (.subiShort { reg := .r4, imm8 := 5, shift := { type := .lsl, amount := .register .r2 }, sel := .fromAlu
                       cond := .al }) ∧
  decodeTableWord 32 0xD159E453 =
    some (.andr { r1 := .r5, r2 := .r6, r3 := .r7, shift := { type := .lsl, amount := .register .r1 }, sel := .fromAlu
                  cond := .cs }) ∧
  decodeTableWord 32 0x4C480020 =
    some (.storPreIdx { r1 := .r1, r2 := .r2, r3 := .sr, shift := { type := .nul, amount := .literal 0 }, pair := .s
                        cond := .al }) ∧
  decodeTableWord 32 0x683FFC32 = some (.branOff { reg := .sr, imm := 0xFFF0, pair := .p, cond := .ne }) ∧
  decodeTableWord 32 0x7000001D = some (.ljsrOff { reg := .sr, imm := 0, pair := .a, cond := .gt }) ∧
  decodeTableWord 32 0x3C046000 = some (.excp { reg := .sr, par := 0x80, sel := .noUpdate, cond := .al }) ∧
  decodeTableWord 32 0x63800000 = some .rets ∧
  decodeTableWord 32 0x80C01960 =
    some (.shfi { reg := .r3, shift := { type := .rtr, amount := .literal 5 }, cond := .al })

/-- Decode and encode agree: the decoder reads back every instruction in its one spelling, whatever bytes follow
(30_encoding.md R103 to R106, R113, R116; log 33). -/
def Obligations.DecodeOfEncode : Prop :=
  ∀ (i : Instr) (rest : List Byte), wellFormed i = true → decode (encodeBytes i ++ rest) = .ok (i, rest)

/-- Every 32-bit word decodes, to the instruction in its one spelling, and no bit of the word is lost (30_encoding.md
R120; log 33, log 34). -/
def Obligations.EncodeOfDecode : Prop :=
  ∀ w : InstrWord, encodeWord (decodeWord w) = w ∧ wellFormed (decodeWord w) = true

/-! ### The step -/

/-- A step runs the decoded instruction (40_common_execution.md R140). When the service point enters nothing, the machine
does not wait and the fetch does not fault, the step is `exec` of the instruction the bytes at the program counter decode
to, on the state as it begins, followed by the trace when SR.T was set; when nothing is signalled and SR.T is clear it is
`exec` alone. The state as an instruction begins differs in nothing but the cause register, 0x1000 or 0x0000, always the
same of the two (60_exceptions.md R386; log 6), and the model's own counter, one more (log 7). Those bytes are the words
at the program counter and at the next address of its segment, the high byte of each first (40_common_execution.md R141;
log 1, log 38); what a fetch reads at a device address nothing is presented for: log 17. -/
def Obligations.StepRunsDecoded : Prop :=
  (∀ (s t : State) (i : Instr) (rest : List Byte), t = s.atBoundary → serviceInterrupt t = none → t.waiting = false →
    t.beginInstr.fetchFault = none → decode t.fetchBytes = .ok (i, rest) → wellFormed i = true →
    step s = traceAfter t.traceMode (exec i t.beginInstr)) ∧
  (∀ (s : State) (i : Instr) (rest : List Byte), s.Quiet → s.traceMode = false →
    s.beginInstr.fetchFault = none → decode s.fetchBytes = .ok (i, rest) → wellFormed i = true →
    step s = exec i s.beginInstr) ∧
  (∀ (s : State) (hi lo : Word), hi = s.readWord (busAddr s.regs.ph s.regs.pl) →
    lo = s.readWord (busAddr s.regs.ph (s.regs.pl + 1)) →
    s.fetchBytes = [hi.extractLsb' 8 8, hi.extractLsb' 0 8, lo.extractLsb' 8 8, lo.extractLsb' 0 8]) ∧
  (∃ idle : Word, (idle = 0x1000 ∨ idle = 0x0000) ∧
    ∀ s : State, s.beginInstr = { s with cause := idle, freeCount := s.freeCount + 1 })

/-- The faults of a fetch, in the order they are detected (40_common_execution.md R141, 60_exceptions.md R367), whenever
the service point enters nothing and the machine does not wait: an odd program counter, a bus error on the first word, on
the second, and the overflow of the program counter; where none of them holds the fetch does not fault. Inside a fault
handler each is the Double Fault (R363). Phase codes: log 18. The entry a fault makes rests on the spec's decisions D1,
D47 and D48, as FaultEntry says (log 19, log 31). Choices: the order of the faults of one fetch is the spec's own decision
D35, and that the program counter overflows at 0xFFFE, with the instruction there not executed and its own address saved,
is its decision D36 (R141, R358, R367; log 29). -/
def Obligations.FetchFaults : Prop :=
  ∀ (s t b : State), t = s.atBoundary → serviceInterrupt t = none → t.waiting = false → b = t.beginInstr →
    (t.regs.pl.getLsbD 0 = true → b.canFault .alignment → faults .alignment 0 0 b (step s)) ∧
    (t.regs.pl.getLsbD 0 = false → t.busError (busAddr t.regs.ph t.regs.pl) .fetch = true → b.canFault .bus →
      faults .bus 0 (busAddr t.regs.ph t.regs.pl) b (step s)) ∧
    (t.regs.pl.getLsbD 0 = false → t.busError (busAddr t.regs.ph t.regs.pl) .fetch = false →
      t.busError (busAddr t.regs.ph (t.regs.pl + 1)) .fetch = true → b.canFault .bus →
      faults .bus 1 (busAddr t.regs.ph (t.regs.pl + 1)) b (step s)) ∧
    (t.regs.pl = 0xFFFE → t.trapOverflow = true → t.busError (busAddr t.regs.ph t.regs.pl) .fetch = false →
      t.busError (busAddr t.regs.ph (t.regs.pl + 1)) .fetch = false → b.canFault .segmentOverflow →
      faults .segmentOverflow 1 0 b (step s)) ∧
    (t.regs.pl.getLsbD 0 = false → t.busError (busAddr t.regs.ph t.regs.pl) .fetch = false →
      t.busError (busAddr t.regs.ph (t.regs.pl + 1)) .fetch = false → (t.regs.pl = 0xFFFE → t.trapOverflow = false) →
      b.fetchFault = none)

/-! ### Exceptions -/

/-- Taking a first fault (60_exceptions.md R354, R355, R364): link[6], the metadata, the level, the mode, the target, and
nothing else; the vector ids of the six faults the manual numbers (R351, R356 to R360, R363); the address of a vector's
entry, twice its id (20_memory.md R77); and any entry whose vector cannot be read stops (20_memory.md R78). The code of a
fault is the one the parameter FAULT_CODE lists for it (the first), and where it lists none the low four bits of the
vector id (00_scope.md R6, 60_exceptions.md R365; log 18). Vector reads: log 16. Choices in the entry: the word order of
the vector, high word first, is the spec's own decision D1 (20_memory.md R73; log 19); that entry clears P and T and
nothing else of the status register, and saves the level in a hidden field, are its decisions D47 and D48 (log 31). -/
def Obligations.FaultEntry : Prop :=
  (∀ (f : FaultKind) (phase : BitVec 3) (bus : Addr) (ret : BitVec 32) (s : State), s.level ≠ 7 →
    s.vectorReadable (vectorOf f) → ∃ t, takeFault f phase bus ret s = .next t ∧ FaultTaken f phase bus ret s t) ∧
  (∀ (v : BitVec 8) (l : Fin 8) (k : Fin 7) (ret : BitVec 32) (s : State), ¬s.vectorReadable v →
    enterException v l k ret s = .fault .vectorBusError) ∧
  (∀ v : BitVec 8, (vectorAddr v).toNat = 2 * v.toNat) ∧
  (∀ (s : State) (f : FaultKind),
    ((∀ c ∈ s.params.faultCodes, c.fault ≠ f) → s.faultCode f = (vectorOf f).extractLsb' 0 4) ∧
    (∀ (earlier later : List FaultCode) (code : BitVec 4),
      s.params.faultCodes = earlier ++ { fault := f, code := code } :: later → (∀ c ∈ earlier, c.fault ≠ f) →
      s.faultCode f = code)) ∧
  vectorOf .bus = 0x01 ∧ vectorOf .alignment = 0x02 ∧ vectorOf .segmentOverflow = 0x03 ∧
  vectorOf .invalidOpcode = 0x04 ∧ vectorOf .privilegeViolation = 0x05 ∧ vectorOf .doubleFault = 0x06

/-- A fault while a fault is being handled is the Double Fault (60_exceptions.md R355, R363): vector 0x06, link[6]
overwritten with the new return address, the type of the first fault kept in bits 11 to 8 of the metadata. At level 7 any
fault of an instruction takes it with the instruction's own address, as the step does of one whose program counter is odd;
that the faulting forms of every instruction do so too is in FetchFaults, TraceFault, PrivilegedDestination,
SegmentOverflowFault, DataBusFault, ControlFlowChecks, InvalidCalls and CallChecks, all of which hold at level 7. Codes
and phases: log 18. The entry a fault makes rests on the spec's decisions D1, D47 and D48, as FaultEntry says (log 19, log
31). -/
def Obligations.DoubleFaultEntry : Prop :=
  (∀ (f : FaultKind) (phase : BitVec 3) (bus : Addr) (ret : BitVec 32) (s : State), s.level = 7 →
    s.vectorReadable 0x06 →
    (∃ t, takeFault f phase bus ret s = .next t ∧ DoubleFaultTaken phase bus ret s t) ∧
    (∃ t, raiseFault f phase bus s = .next t ∧ DoubleFaultTaken phase bus s.pc s t) ∧
    (s.params.faultCodes = [] → s.faultCode .doubleFault = 0x6)) ∧
  (∀ s t b : State, t = s.atBoundary → serviceInterrupt t = none → t.waiting = false → b = t.beginInstr →
    t.regs.pl.getLsbD 0 = true → t.level = 7 → b.vectorReadable 0x06 →
    ∃ u, step s = .next u ∧ DoubleFaultTaken 0 0 t.pc b u)

/-- An interrupt is entered at the service point (60_exceptions.md R368, R370 to R372): the eligible line of the highest
level, latched before or at this very boundary, through its own vector, level and link register; its latch is cleared and
the saved address is that of the instruction that has not yet run. A line is eligible when it is pending, enabled and
above the level. Vectors, levels and link registers of the five lines are those of the table of R368. Log 28; a vector at
a device address nothing is presented for: log 17. Choices in the entry: the word order of the vector, high word first, is
the spec's own decision D1 (20_memory.md R73; log 19); that entry clears P and T and nothing else of the status register,
and saves the level in a hidden field, are its decisions D47 and D48 (log 31). -/
def Obligations.InterruptEntry : Prop :=
  (∀ (s b : State) (k : IrqLine), b = s.atBoundary → b.pending.get k = true → b.lineEnabled k = true →
    b.level < lineLevel k → (∀ j, lineLevel k < lineLevel j → b.eligible j = false) →
    b.vectorReadable (lineVector k) →
    ∃ t, step s = .next t ∧ Entered (lineVector k) (lineLevel k) (lineLink k) s.pc b t ∧
      t.pending = b.pending.set k false ∧ t.cause = 0x1F#8 ++ lineVector k ∧ t.faultMeta = s.faultMeta) ∧
  (∀ (b : State) (k : IrqLine), b.eligible k = true ↔
    b.pending.get k = true ∧ b.lineEnabled k = true ∧ b.level < lineLevel k) ∧
  (lineVector .line1 = 0x10 ∧ lineLevel .line1 = 6 ∧ lineLink .line1 = 5) ∧
  (lineVector .line2 = 0x20 ∧ lineLevel .line2 = 5 ∧ lineLink .line2 = 4) ∧
  (lineVector .line3 = 0x30 ∧ lineLevel .line3 = 4 ∧ lineLink .line3 = 3) ∧
  (lineVector .line4 = 0x40 ∧ lineLevel .line4 = 3 ∧ lineLink .line4 = 2) ∧
  (lineVector .line5 = 0x50 ∧ lineLevel .line5 = 2 ∧ lineLink .line5 = 1)

/-- What the platform brings at a boundary (60_exceptions.md R369, R371): an event on an enabled line sets its latch, one
on a disabled line is lost; lines 1 to 4 are enabled by bits 9 to 12 of the status register, line 5 always (10_state.md
R37, 60_exceptions.md R368); the words its devices present take the place of the old ones, or stay where it brings none
(log 17); nothing else changes. Each line has a latch of its own (10_state.md R46). Log 15, log 28. -/
def Obligations.EventLatching : Prop :=
  ∀ (s b : State), b = s.atBoundary →
    (∀ (now : List IrqLine) (later : List (List IrqLine)), s.irqEvents = now :: later →
      b.irqEvents = later ∧ ∀ k, b.pending.get k = (s.pending.get k || (decide (k ∈ now) && s.lineEnabled k))) ∧
    (s.irqEvents = [] → b.irqEvents = [] ∧ b.pending = s.pending) ∧
    (∀ (now : List DeviceWord) (later : List (List DeviceWord)), s.deviceEvents = now :: later →
      b.deviceEvents = later ∧ b.deviceWords = now) ∧
    (s.deviceEvents = [] → b.deviceEvents = [] ∧ b.deviceWords = s.deviceWords) ∧
    b.regs = s.regs ∧ b.level = s.level ∧ b.waiting = s.waiting ∧ b.links = s.links ∧ b.faultMeta = s.faultMeta ∧
    b.cause = s.cause ∧ b.mem = s.mem ∧ b.busErrors = s.busErrors ∧ b.params = s.params ∧
    b.deviceWrites = s.deviceWrites ∧ b.freeCount = s.freeCount ∧
    (s.lineEnabled .line1 = s.regs.sr.getLsbD 9 ∧ s.lineEnabled .line2 = s.regs.sr.getLsbD 10 ∧
      s.lineEnabled .line3 = s.regs.sr.getLsbD 11 ∧ s.lineEnabled .line4 = s.regs.sr.getLsbD 12 ∧
      s.lineEnabled .line5 = true) ∧
    (s.pending.get .line1 = s.pending.line1 ∧ s.pending.get .line2 = s.pending.line2 ∧
      s.pending.get .line3 = s.pending.line3 ∧ s.pending.get .line4 = s.pending.line4 ∧
      s.pending.get .line5 = s.pending.line5) ∧
    (∀ (k j : IrqLine) (v : Bool), (s.pending.set k v).get j = if j = k then v else s.pending.get j)

/-- A line-1 event while its handler runs (level 6) is the Level Five Hardware Exception Conflict (60_exceptions.md R362),
latched before or at this very boundary (R371): the latch is consumed and the fault entered, the saved address being the
next instruction's. The vector is the implementation's (log 14); phase code: log 18. The entry a fault makes rests on the
spec's decisions D1, D47 and D48, as FaultEntry says (log 19, log 31). -/
def Obligations.LevelFiveConflict : Prop :=
  ∀ s b : State, b = s.atBoundary → b.pending.line1 = true → b.regs.sr.getLsbD 9 = true → b.level = 6 →
    b.vectorReadable (vectorOf .levelFiveConflict) →
    ∃ t, step s = .next t ∧
      FaultTaken .levelFiveConflict 0 0 s.pc { b with pending := b.pending.set .line1 false } t

/-- A waiting machine with nothing to take goes on waiting (60_exceptions.md R376): where no line, with the events of this
boundary latched, is eligible and there is no conflict, only what the platform brings changes; where it brings nothing the
state stays as it is. The service point enters nothing exactly then (R371); the conflict is that of R362. Log 14, log 28.
-/
def Obligations.WaitHolds : Prop :=
  (∀ s b : State, b = s.atBoundary → b.waiting = true → (∀ k, b.eligible k = false) → b.levelFiveConflict = false →
    step s = .next b ∧ (s.irqEvents = [] → s.deviceEvents = [] → b = s)) ∧
  (∀ b : State,
    (serviceInterrupt b = none ↔ (∀ k, b.eligible k = false) ∧ b.levelFiveConflict = false) ∧
    (b.levelFiveConflict = true ↔ b.pending.line1 = true ∧ b.regs.sr.getLsbD 9 = true ∧ b.level = 6))

/-- Trace (60_exceptions.md R361; log 13, log 35), whenever the service point enters nothing and the machine does not
wait: with SR.T set before it, an instruction that completes without a fault is followed in the same step by the
Instruction Trace Fault, whose saved address is the next instruction's (at level 7 by the Double Fault, R363); one that
takes a fault, of the fetch or its own, is not. The phase code 5 is the spec's own numbering (R366, D27; log 18). The
entry a fault makes rests on the spec's decisions D1, D47 and D48, as FaultEntry says (log 19, log 31). -/
def Obligations.TraceFault : Prop :=
  ∀ (s t b : State), t = s.atBoundary → serviceInterrupt t = none → t.waiting = false → t.traceMode = true →
    b = t.beginInstr →
    (∀ (i : Instr) (rest : List Byte) (u : State), b.fetchFault = none → decode t.fetchBytes = .ok (i, rest) →
      exec i b = .next u →
      ((∀ f phase bus, ¬faults f phase bus b (.next u)) → u.canFault .trace →
        ∃ v, step s = .next v ∧ FaultEntered .trace 5 0 u.pc u v) ∧
      (∀ f phase bus, faults f phase bus b (.next u) → step s = .next u)) ∧
    (∀ f phase bus, b.fetchFault = some (f, phase, bus) → b.canFault f → faults f phase bus b (step s))

/-! ### Registers -/

/-- Reading a register (10_state.md R38, R41; log 23): a plain register as stored; `sr` in protected mode with its upper
byte zero, in supervisor mode with bit 13 saying whether an exception is being handled. What an entry saves is the full
status register, with that bit 13, in either mode (R38). The flags Z, N, C, V are bits 0 to 3, P, A and T bits 8, 14 and
15 (R30). Every register has its own place (R20). Operands are read after fetch, when the low half of the program counter
is two more and nothing else has changed (R28). -/
def Obligations.RegisterRead : Prop :=
  ∀ (s : State) (r : Reg),
    (r ≠ .sr → s.readReg r = s.regs.get r) ∧
    (s.protectedMode = true →
      (s.readReg .sr).extractLsb' 8 8 = 0 ∧ (s.readReg .sr).extractLsb' 0 8 = s.regs.sr.extractLsb' 0 8) ∧
    (s.protectedMode = false →
      (s.readReg .sr).getLsbD 13 = decide (s.level ≠ 0) ∧
      ∀ j, j ≠ 13 → (s.readReg .sr).getLsbD j = s.regs.sr.getLsbD j) ∧
    (s.srFull.getLsbD 13 = decide (s.level ≠ 0) ∧ ∀ j, j ≠ 13 → s.srFull.getLsbD j = s.regs.sr.getLsbD j) ∧
    (s.flags.z = s.regs.sr.getLsbD 0 ∧ s.flags.n = s.regs.sr.getLsbD 1 ∧ s.flags.c = s.regs.sr.getLsbD 2 ∧
      s.flags.v = s.regs.sr.getLsbD 3) ∧
    s.protectedMode = s.regs.sr.getLsbD 8 ∧ s.trapOverflow = s.regs.sr.getLsbD 14 ∧
    s.traceMode = s.regs.sr.getLsbD 15 ∧
    [Reg.sr, .r1, .r2, .r3, .r4, .r5, .r6, .r7, .lh, .ll, .ah, .al, .sh, .sl, .ph, .pl].map s.regs.get =
      [s.regs.sr, s.regs.r1, s.regs.r2, s.regs.r3, s.regs.r4, s.regs.r5, s.regs.r6, s.regs.r7, s.regs.lh, s.regs.ll,
        s.regs.ah, s.regs.al, s.regs.sh, s.regs.sl, s.regs.ph, s.regs.pl] ∧
    s.advance = { s with regs := { s.regs with pl := s.regs.pl + 2 } }

/-- Writing a register (10_state.md R38, R42; log 23): the register written and nothing else, with the rule for `sr` in
each mode; the writes that are forbidden are those of the four high registers in protected mode. -/
def Obligations.RegisterWrite : Prop :=
  ∀ (s : State) (r : Reg) (v : Word),
    WrittenTo r v s (s.writeReg r v) ∧ OnlyRegs [r] s (s.writeReg r v) ∧
    (r ≠ .sr → (s.writeReg r v).readReg r = v) ∧
    (s.writeForbidden r = true ↔ s.protectedMode = true ∧ r ∈ [Reg.lh, .ah, .sh, .ph])

/-! ### Arithmetic, conditions, shifts -/

/-- Addition (41_alu.md R181): result and carry together are the exact unsigned sum, V is clear exactly when the signed
reading of the result is the exact signed sum, N and Z describe the result; ADD adds no carry, ADC the carry flag. -/
def Obligations.AddExact : Prop :=
  (∀ (a b : Word) (cin : Bool),
    (addWithCarry a b cin).1.toNat + 65536 * (addWithCarry a b cin).2.c.toNat = a.toNat + b.toNat + cin.toNat ∧
    ((addWithCarry a b cin).2.v = false ↔ (addWithCarry a b cin).1.toInt = a.toInt + b.toInt + cin.toNat) ∧
    (addWithCarry a b cin).2.n = (addWithCarry a b cin).1.getLsbD 15 ∧
    ((addWithCarry a b cin).2.z = true ↔ (addWithCarry a b cin).1 = 0)) ∧
  (∀ (a b : Word) (c : Bool),
    aluOp .add a b c = addWithCarry a b false ∧ aluOp .adc a b c = addWithCarry a b c)

/-- Subtraction (41_alu.md R182): the result is the exact difference modulo 2^16 and C is set exactly when there is no
borrow, V is clear exactly when the signed reading of the result is the exact signed difference, N and Z describe the
result; SUB and CMP borrow nothing, SBC one less the carry flag. -/
def Obligations.SubExact : Prop :=
  (∀ (a b : Word) (bin : Bool),
    ((subWithBorrow a b bin).1.toNat : Int) =
      a.toNat - b.toNat - bin.toNat + (if (subWithBorrow a b bin).2.c then 0 else 65536) ∧
    ((subWithBorrow a b bin).2.v = false ↔ (subWithBorrow a b bin).1.toInt = a.toInt - b.toInt - bin.toNat) ∧
    (subWithBorrow a b bin).2.n = (subWithBorrow a b bin).1.getLsbD 15 ∧
    ((subWithBorrow a b bin).2.z = true ↔ (subWithBorrow a b bin).1 = 0)) ∧
  (∀ (a b : Word) (c : Bool),
    aluOp .sub a b c = subWithBorrow a b false ∧ aluOp .sbc a b c = subWithBorrow a b (!c))

/-- The logic operations (41_alu.md R183): bit by bit, N and Z describe the result, C and V are cleared. -/
def Obligations.LogicOperations : Prop :=
  ∀ (a b : Word) (c : Bool) (op : AluOp) (g : Bool → Bool → Bool),
    (op = .and ∧ g = (· && ·)) ∨ (op = .orr ∧ g = (· || ·)) ∨ (op = .xor ∧ g = (· ^^ ·)) →
    (∀ j, j < 16 → (aluOp op a b c).1.getLsbD j = g (a.getLsbD j) (b.getLsbD j)) ∧
    (aluOp op a b c).2.n = (aluOp op a b c).1.getLsbD 15 ∧
    ((aluOp op a b c).2.z = true ↔ (aluOp op a b c).1 = 0) ∧
    (aluOp op a b c).2.c = false ∧ (aluOp op a b c).2.v = false

/-- The sixteen conditions (40_common_execution.md R143), and what they say after a compare. -/
def Obligations.ConditionsAfterCompare : Prop :=
  (∀ f : Flags,
    condHolds .al f = true ∧ condHolds .nv f = false ∧ (condHolds .eq f = true ↔ f.z = true) ∧
    (condHolds .ne f = true ↔ f.z = false) ∧ (condHolds .cs f = true ↔ f.c = true) ∧
    (condHolds .cc f = true ↔ f.c = false) ∧ (condHolds .ns f = true ↔ f.n = true) ∧
    (condHolds .nc f = true ↔ f.n = false) ∧ (condHolds .os f = true ↔ f.v = true) ∧
    (condHolds .oc f = true ↔ f.v = false) ∧ (condHolds .hi f = true ↔ f.c = true ∧ f.z = false) ∧
    (condHolds .lo f = true ↔ f.c = false ∨ f.z = true) ∧ (condHolds .ge f = true ↔ f.n = f.v) ∧
    (condHolds .lt f = true ↔ f.n ≠ f.v) ∧ (condHolds .gt f = true ↔ f.z = false ∧ f.n = f.v) ∧
    (condHolds .le f = true ↔ f.z = true ∨ f.n ≠ f.v)) ∧
  (∀ (a b : Word) (c : Bool),
    (condHolds .eq (aluOp .sub a b c).2 = true ↔ a = b) ∧ (condHolds .ne (aluOp .sub a b c).2 = true ↔ a ≠ b) ∧
    (condHolds .hi (aluOp .sub a b c).2 = true ↔ b.toNat < a.toNat) ∧
    (condHolds .cs (aluOp .sub a b c).2 = true ↔ b.toNat ≤ a.toNat) ∧
    (condHolds .cc (aluOp .sub a b c).2 = true ↔ a.toNat < b.toNat) ∧
    (condHolds .lo (aluOp .sub a b c).2 = true ↔ a.toNat ≤ b.toNat) ∧
    (condHolds .gt (aluOp .sub a b c).2 = true ↔ b.toInt < a.toInt) ∧
    (condHolds .ge (aluOp .sub a b c).2 = true ↔ b.toInt ≤ a.toInt) ∧
    (condHolds .lt (aluOp .sub a b c).2 = true ↔ a.toInt < b.toInt) ∧
    (condHolds .le (aluOp .sub a b c).2 = true ↔ a.toInt ≤ b.toInt))

/-- Subtraction is addition of the complement with carry in (41_alu.md R217 (b)): the same result, C and V. -/
def Obligations.SubIsAddComplement : Prop :=
  ∀ a b : Word,
    (subWithBorrow a b false).1 = (addWithCarry a (~~~b) true).1 ∧
    (subWithBorrow a b false).2.c = (addWithCarry a (~~~b) true).2.c ∧
    (subWithBorrow a b false).2.v = (addWithCarry a (~~~b) true).2.v

/-- LSL, LSR and ASR (40_common_execution.md R150, R151, R153): multiplication modulo 2^16, unsigned division, signed
division rounding down; the carry is the last bit moved out. -/
def Obligations.ShiftsAsArithmetic : Prop :=
  ∀ (n : Nat) (v : Word) (cin : Bool), 1 ≤ n → n ≤ 15 →
    ((shiftBy .lsl n v cin).value.toNat = v.toNat * 2 ^ n % 65536 ∧
      (shiftBy .lsl n v cin).carry = v.getLsbD (16 - n)) ∧
    ((shiftBy .lsr n v cin).value.toNat = v.toNat / 2 ^ n ∧ (shiftBy .lsr n v cin).carry = v.getLsbD (n - 1)) ∧
    ((shiftBy .asr n v cin).value.toInt = v.toInt / (2 : Int) ^ n ∧
      (shiftBy .asr n v cin).carry = v.getLsbD (n - 1))

/-- ASL (40_common_execution.md R152; the reading of V over several places is the spec's own decision D11, log 30): for a
count of 0 to 15 the value and carry of LSL, and the overflow indication is clear exactly when the signed value times 2^n
fits the result; with a count of 0 it is clear. -/
def Obligations.AslOverflow : Prop :=
  ∀ (n : Nat) (v : Word) (cin : Bool), n ≤ 15 →
    (shiftBy .asl n v cin).value = (shiftBy .lsl n v cin).value ∧
    (shiftBy .asl n v cin).carry = (shiftBy .lsl n v cin).carry ∧
    ((shiftBy .asl n v cin).overflow = false ↔ (shiftBy .asl n v cin).value.toInt = v.toInt * 2 ^ n) ∧
    (n = 0 → (shiftBy .asl n v cin).overflow = false)

/-- RTL and RTR (40_common_execution.md R154, R155): a rotate of the 17 bits of carry over value, and each undoes the
other. -/
def Obligations.RotatesThroughCarry : Prop :=
  ∀ (n : Nat) (v : Word) (cin : Bool) (l r : ShiftOut), 1 ≤ n → n ≤ 15 →
    l = shiftBy .rtl n v cin → r = shiftBy .rtr n v cin →
    (∀ j, j < 17 → (BitVec.ofBool l.carry ++ l.value).getLsbD ((j + n) % 17) = (BitVec.ofBool cin ++ v).getLsbD j) ∧
    (∀ j, j < 17 → (BitVec.ofBool r.carry ++ r.value).getLsbD j = (BitVec.ofBool cin ++ v).getLsbD ((j + n) % 17)) ∧
    (shiftBy .rtr n l.value l.carry).value = v ∧ (shiftBy .rtr n l.value l.carry).carry = cin ∧
    (shiftBy .rtl n r.value r.carry).value = v ∧ (shiftBy .rtl n r.value r.carry).carry = cin

/-- The shifter's count (40_common_execution.md R148, R149, R156): a literal, or the value of a register; with a count of
0 or with ST = 000 value and carry pass unchanged, ST = 000 whatever the count, and with a count of 0 there is no overflow
indication (R152); the carry in is the flag. A register count above 15 is left open (log 8). -/
def Obligations.ShiftCounts : Prop :=
  ∀ (s : State) (v : Word) (type : ShiftType) (n : BitVec 4) (r : Reg) (amount : ShiftAmount),
    (type ≠ .nul → s.shifted { type := type, amount := .literal n } v = shiftBy type n.toNat v s.flags.c) ∧
    (type ≠ .nul → (s.readReg r).toNat ≤ 15 →
      s.shifted { type := type, amount := .register r } v = shiftBy type (s.readReg r).toNat v s.flags.c) ∧
    (s.shifted { type := .nul, amount := amount } v).value = v ∧
    (s.shifted { type := .nul, amount := amount } v).carry = s.flags.c ∧
    (s.shifted { type := type, amount := .literal 0 } v).value = v ∧
    (s.shifted { type := type, amount := .literal 0 } v).carry = s.flags.c ∧
    (s.shifted { type := type, amount := .literal 0 } v).overflow = false ∧
    ((s.readReg r).toNat = 0 → s.shifted { type := type, amount := .register r } v =
      { value := v, carry := s.flags.c, overflow := false })

/-! ### Conditional execution -/

/-- A false condition (40_common_execution.md R144; log 29): any instruction completes as a no-operation, the program
counter going past it and nothing else changing. -/
def Obligations.FalseCondition : Prop :=
  ∀ (i : Instr) (s : State), condHolds (condOf i) s.flags = false →
    ∃ t, exec i s = .next t ∧ movedOn s t ∧ OnlyRegs [.pl] s t

/-! ### ALU instructions -/

/-- The saving ALU instructions of the Immediate format (41_alu.md R180, R184 to R190; 40_common_execution.md R159, R160):
they complete, the result is in the destination, the flags are as AF selects. Destination `sr`: log 23. V after AF = 10 is
left open (log 9). That AF = 10 in this format takes N and Z from the unshifted first operand and leaves C is the spec's
decision D12 (log 9). -/
def Obligations.ImmediateSaves : Prop :=
  ∀ (f : ImmAlu) (s : State) (a : Word), condHolds f.cond s.flags = true → f.sel ≠ .reserved →
    s.writeForbidden f.reg = false → a = s.advance.readReg f.reg →
    let saves := fun (i : Instr) (r : Word × Flags) =>
      ∃ t, exec i s = .next t ∧
        AluSaved f.sel f.reg r .nul { value := a, carry := s.flags.c, overflow := false } s t
    saves (.addi f) (addWithCarry a f.imm false) ∧ saves (.adci f) (addWithCarry a f.imm s.flags.c) ∧
    saves (.subi f) (subWithBorrow a f.imm false) ∧ saves (.sbci f) (subWithBorrow a f.imm (!s.flags.c)) ∧
    saves (.andi f) (logicFlags (a &&& f.imm)) ∧ saves (.orri f) (logicFlags (a ||| f.imm)) ∧
    saves (.xori f) (logicFlags (a ^^^ f.imm))

/-- The test instructions of the Immediate format (41_alu.md R180, R192 to R194): they complete in either mode and change
flags only, as AF selects. V after AF = 10 is left open (log 9). That AF = 10 in this format takes N and Z from the
unshifted first operand and leaves C is the spec's decision D12 (log 9). -/
def Obligations.ImmediateTests : Prop :=
  ∀ (f : ImmAlu) (s : State) (a : Word), condHolds f.cond s.flags = true → f.sel ≠ .reserved →
    a = s.advance.readReg f.reg →
    let tests := fun (i : Instr) (r : Word × Flags) =>
      ∃ t, exec i s = .next t ∧
        AluTested f.sel r .nul { value := a, carry := s.flags.c, overflow := false } s t
    tests (.cmpi f) (subWithBorrow a f.imm false) ∧ tests (.tsai f) (logicFlags (a &&& f.imm)) ∧
    tests (.tsxi f) (logicFlags (a ^^^ f.imm))

/-- The saving ALU instructions of the Short Immediate format (41_alu.md R180, R195 to R201; 40_common_execution.md R146):
the register is shifted, the extended constant is not. The extension of Imm8 (30_encoding.md R110) is with zeros below
0x80; from 0x80 up it is with zeros or with ones, which of the two being open and the same for all (log 10). Model's
choice where the spec refuses: Imm8 from 0x80 up (R110; log 10) and register counts above 15 (R148; log 8). V after AF =
10 with a shift other than ASL is left open (log 9); destination `sr`: log 23. -/
def Obligations.ShortImmediateSaves : Prop :=
  (∀ (f : ShortAlu) (s : State) (o : ShiftOut), condHolds f.cond s.flags = true → f.sel ≠ .reserved →
    f.shift.type ≠ .reserved → s.writeForbidden f.reg = false →
    o = s.advance.shifted f.shift (s.advance.readReg f.reg) →
    let saves := fun (i : Instr) (r : Word × Flags) =>
      ∃ t, exec i s = .next t ∧ AluSaved f.sel f.reg r f.shift.type o s t
    saves (.addiShort f) (addWithCarry o.value (ext8 f.imm8) false) ∧
    saves (.adciShort f) (addWithCarry o.value (ext8 f.imm8) s.flags.c) ∧
    saves (.subiShort f) (subWithBorrow o.value (ext8 f.imm8) false) ∧
    saves (.sbciShort f) (subWithBorrow o.value (ext8 f.imm8) (!s.flags.c)) ∧
    saves (.andiShort f) (logicFlags (o.value &&& ext8 f.imm8)) ∧
    saves (.orriShort f) (logicFlags (o.value ||| ext8 f.imm8)) ∧
    saves (.xoriShort f) (logicFlags (o.value ^^^ ext8 f.imm8))) ∧
  (∀ v : BitVec 8, v.toNat < 0x80 → ext8 v = 0x00#8 ++ v) ∧
  ((∀ v : BitVec 8, 0x80 ≤ v.toNat → ext8 v = 0x00#8 ++ v) ∨ (∀ v : BitVec 8, 0x80 ≤ v.toNat → ext8 v = 0xFF#8 ++ v))

/-- The test instructions of the Short Immediate format (41_alu.md R180, R203 to R205): they complete in either mode and
change flags only, as AF selects. Model's choice where the spec refuses: Imm8 from 0x80 up (R110; log 10) and register
counts above 15 (R148; log 8). V after AF = 10 with a shift other than ASL is left open (log 9). -/
def Obligations.ShortImmediateTests : Prop :=
  ∀ (f : ShortAlu) (s : State) (o : ShiftOut), condHolds f.cond s.flags = true → f.sel ≠ .reserved →
    f.shift.type ≠ .reserved → o = s.advance.shifted f.shift (s.advance.readReg f.reg) →
    let tests := fun (i : Instr) (r : Word × Flags) =>
      ∃ t, exec i s = .next t ∧ AluTested f.sel r f.shift.type o s t
    tests (.cmpiShort f) (subWithBorrow o.value (ext8 f.imm8) false) ∧
    tests (.tsaiShort f) (logicFlags (o.value &&& ext8 f.imm8)) ∧
    tests (.tsxiShort f) (logicFlags (o.value ^^^ ext8 f.imm8))

/-- The saving ALU instructions of the Register format (41_alu.md R180, R206 to R212; 40_common_execution.md R147): R2 is
shifted, R3 is the second operand, R1 the destination; all are read before any is written. Model's choice where the spec
refuses: register counts above 15 (R148; log 8). V after AF = 10 with a shift other than ASL is left open (log 9);
destination `sr`: log 23. -/
def Obligations.RegisterSaves : Prop :=
  ∀ (f : RegAlu) (s : State) (o : ShiftOut) (b : Word), condHolds f.cond s.flags = true → f.sel ≠ .reserved →
    f.shift.type ≠ .reserved → s.writeForbidden f.r1 = false →
    o = s.advance.shifted f.shift (s.advance.readReg f.r2) → b = s.advance.readReg f.r3 →
    let saves := fun (i : Instr) (r : Word × Flags) =>
      ∃ t, exec i s = .next t ∧ AluSaved f.sel f.r1 r f.shift.type o s t
    saves (.addr f) (addWithCarry o.value b false) ∧ saves (.adcr f) (addWithCarry o.value b s.flags.c) ∧
    saves (.subr f) (subWithBorrow o.value b false) ∧ saves (.sbcr f) (subWithBorrow o.value b (!s.flags.c)) ∧
    saves (.andr f) (logicFlags (o.value &&& b)) ∧ saves (.orrr f) (logicFlags (o.value ||| b)) ∧
    saves (.xorr f) (logicFlags (o.value ^^^ b))

/-- The test instructions of the Register format (41_alu.md R180, R214 to R216): R1 is neither read nor written. Model's
choice where the spec refuses: register counts above 15 (R148; log 8). V after AF = 10 with a shift other than ASL is left
open (log 9). -/
def Obligations.RegisterTests : Prop :=
  ∀ (f : RegAlu) (s : State) (o : ShiftOut) (b : Word), condHolds f.cond s.flags = true → f.sel ≠ .reserved →
    f.shift.type ≠ .reserved → o = s.advance.shifted f.shift (s.advance.readReg f.r2) →
    b = s.advance.readReg f.r3 →
    let tests := fun (i : Instr) (r : Word × Flags) =>
      ∃ t, exec i s = .next t ∧ AluTested f.sel r f.shift.type o s t
    tests (.cmpr f) (subWithBorrow o.value b false) ∧ tests (.tsar f) (logicFlags (o.value &&& b)) ∧
    tests (.tsxr f) (logicFlags (o.value ^^^ b))

/-- LOAD of an immediate or a register (41_alu.md R191, R202, R213; log 24): the value into the destination, no flag, AF
ignored; the source of the register form is R3. Model's choice where the spec refuses: Imm8 from 0x80 up (R110; log 10).
-/
def Obligations.LoadValue : Prop :=
  ∀ (s : State),
    (∀ f : ImmAlu, condHolds f.cond s.flags = true → s.writeForbidden f.reg = false →
      ∃ t, exec (.loadImm f) s = .next t ∧ Loaded f.reg f.imm s t) ∧
    (∀ f : ShortAlu, condHolds f.cond s.flags = true → s.writeForbidden f.reg = false →
      f.shift = { type := .nul, amount := .literal 0 } →
      ∃ t, exec (.loadShort f) s = .next t ∧ Loaded f.reg (ext8 f.imm8) s t) ∧
    (∀ f : RegAlu, condHolds f.cond s.flags = true → s.writeForbidden f.r1 = false →
      f.shift = { type := .nul, amount := .literal 0 } →
      ∃ t, exec (.loadReg f) s = .next t ∧ Loaded f.r1 (s.advance.readReg f.r3) s t)

/-- The twelve undocumented opcodes (46_undocumented.md R340 to R344; log 11): under either setting of UNDOC_OPS they
complete in either mode, write no general register and no memory, and keep the flags when AF is 00; under `refuse` the
flags are left open otherwise (R344); under `test` each is the ALU instruction without the write-back, its flags those AF
selects (R341 to R343). Extension of Imm8: log 10. Register counts above 15: log 8. V after AF = 10 with a shift other
than ASL is left open (log 9). -/
def Obligations.UndocumentedOpcodes : Prop :=
  ∀ (s : State),
    let tests := fun (i : Instr) (sel : StatusSel) (r : Word × Flags) (type : ShiftType) (o : ShiftOut) =>
      ∃ t, exec i s = .next t ∧ AluTested sel r type o s t
    let runs := fun (sel : StatusSel) (i : Instr) =>
      ∃ t, exec i s = .next t ∧ movedOn s t ∧ OnlyRegs [.sr, .pl] s t ∧
        t.regs.sr.extractLsb' 4 12 = s.regs.sr.extractLsb' 4 12 ∧ (sel = .noUpdate → t.flags = s.flags)
    (∀ f : ImmAlu, condHolds f.cond s.flags = true → f.sel ≠ .reserved →
      runs f.sel (.undoc08 f) ∧ runs f.sel (.undoc09 f) ∧ runs f.sel (.undoc0B f) ∧ runs f.sel (.undoc0D f)) ∧
    (∀ f : ShortAlu, condHolds f.cond s.flags = true → f.sel ≠ .reserved → f.shift.type ≠ .reserved →
      runs f.sel (.undoc28 f) ∧ runs f.sel (.undoc29 f) ∧ runs f.sel (.undoc2B f) ∧ runs f.sel (.undoc2D f)) ∧
    (∀ f : RegAlu, condHolds f.cond s.flags = true → f.sel ≠ .reserved → f.shift.type ≠ .reserved →
      runs f.sel (.undoc38 f) ∧ runs f.sel (.undoc39 f) ∧ runs f.sel (.undoc3B f) ∧ runs f.sel (.undoc3D f)) ∧
    (s.params.undocOps = .test →
      (∀ (f : ImmAlu) (a : Word), condHolds f.cond s.flags = true → f.sel ≠ .reserved → a = s.advance.readReg f.reg →
        let gives := fun (i : Instr) (r : Word × Flags) =>
          tests i f.sel r .nul { value := a, carry := s.flags.c, overflow := false }
        gives (.undoc08 f) (addWithCarry a f.imm false) ∧ gives (.undoc09 f) (addWithCarry a f.imm s.flags.c) ∧
        gives (.undoc0B f) (subWithBorrow a f.imm (!s.flags.c)) ∧ gives (.undoc0D f) (logicFlags (a ||| f.imm))) ∧
      (∀ (f : ShortAlu) (o : ShiftOut) (b : Word), condHolds f.cond s.flags = true → f.sel ≠ .reserved →
        f.shift.type ≠ .reserved → o = s.advance.shifted f.shift (s.advance.readReg f.reg) → b = ext8 f.imm8 →
        let gives := fun (i : Instr) (r : Word × Flags) => tests i f.sel r f.shift.type o
        gives (.undoc28 f) (addWithCarry o.value b false) ∧ gives (.undoc29 f) (addWithCarry o.value b s.flags.c) ∧
        gives (.undoc2B f) (subWithBorrow o.value b (!s.flags.c)) ∧ gives (.undoc2D f) (logicFlags (o.value ||| b))) ∧
      (∀ (f : RegAlu) (o : ShiftOut) (b : Word), condHolds f.cond s.flags = true → f.sel ≠ .reserved →
        f.shift.type ≠ .reserved → o = s.advance.shifted f.shift (s.advance.readReg f.r2) →
        b = s.advance.readReg f.r3 →
        let gives := fun (i : Instr) (r : Word × Flags) => tests i f.sel r f.shift.type o
        gives (.undoc38 f) (addWithCarry o.value b false) ∧ gives (.undoc39 f) (addWithCarry o.value b s.flags.c) ∧
        gives (.undoc3B f) (subWithBorrow o.value b (!s.flags.c)) ∧ gives (.undoc3D f) (logicFlags (o.value ||| b))))

/-- NOOP, SHFT, SHFI and SHFR (45_meta_instructions.md R320, R330 to R332; log 33): NOOP changes nothing but the program
counter, on a status register as the machine stores it (10_state.md R38); the shift names put the shifted register (SHFR:
plus R3) into the destination with the shifter's flags. Model's choice where the spec refuses: register counts above 15
(R148; log 8). V with a shift other than ASL is left open (log 9); destination `sr`: log 23. -/
def Obligations.NoopAndShifts : Prop :=
  ∀ (s : State),
    (s.regs.sr.getLsbD 13 = false → ∃ t, exec .noop s = .next t ∧ movedOn s t ∧ OnlyRegs [.pl] s t) ∧
    (∀ (f : ShiftOne) (o : ShiftOut), condHolds f.cond s.flags = true → f.shift.type ≠ .reserved →
      s.writeForbidden f.reg = false → o = s.advance.shifted f.shift (s.advance.readReg f.reg) →
      (∃ t, exec (.shft f) s = .next t ∧ AluSaved .fromShift f.reg (o.value, s.flags) f.shift.type o s t) ∧
      (∃ t, exec (.shfi f) s = .next t ∧ AluSaved .fromShift f.reg (o.value, s.flags) f.shift.type o s t)) ∧
    (∀ (f : ShiftReg) (o : ShiftOut), condHolds f.cond s.flags = true → f.shift.type ≠ .reserved →
      s.writeForbidden f.r1 = false → o = s.advance.shifted f.shift (s.advance.readReg f.r2) →
      ∃ t, exec (.shfr f) s = .next t ∧
        AluSaved .fromShift f.r1 (o.value + s.advance.readReg f.r3, s.flags) f.shift.type o s t)

/-- A protected-mode write of `lh`, `ah`, `sh` or `ph` (10_state.md R42, 60_exceptions.md R360; phase: log 18) is the
Privilege Violation Fault, for every instruction that names one as its destination and would otherwise complete (inside a
fault handler, the Double Fault). Model's choice where the spec refuses first: register counts above 15 (R148; log 8) and
Imm8 from 0x80 up (R110; log 10). The entry a fault makes rests on the spec's decisions D1, D47 and D48, as FaultEntry
says (log 19, log 31). The order in which the faults of one instruction are detected is the spec's own decision D35
(60_exceptions.md R367; log 29). -/
def Obligations.PrivilegedDestination : Prop :=
  ∀ (s : State), s.canFault .privilegeViolation → s.protectedMode = true →
    let traps := fun (i : Instr) => faults .privilegeViolation 2 0 s (exec i s)
    (∀ f : ImmAlu, condHolds f.cond s.flags = true → f.reg ∈ [Reg.lh, .ah, .sh, .ph] →
      traps (.loadImm f) ∧
      (f.sel ≠ .reserved → ∀ i ∈ [Instr.addi f, .adci f, .subi f, .sbci f, .andi f, .orri f, .xori f], traps i)) ∧
    (∀ f : ShortAlu, condHolds f.cond s.flags = true → f.reg ∈ [Reg.lh, .ah, .sh, .ph] →
      (f.shift = { type := .nul, amount := .literal 0 } → traps (.loadShort f)) ∧
      (f.sel ≠ .reserved → f.shift.type ≠ .reserved →
        ∀ i ∈ [Instr.addiShort f, .adciShort f, .subiShort f, .sbciShort f, .andiShort f, .orriShort f, .xoriShort f],
          traps i)) ∧
    (∀ f : RegAlu, condHolds f.cond s.flags = true → f.r1 ∈ [Reg.lh, .ah, .sh, .ph] →
      (f.shift = { type := .nul, amount := .literal 0 } → traps (.loadReg f)) ∧
      (f.sel ≠ .reserved → f.shift.type ≠ .reserved →
        ∀ i ∈ [Instr.addr f, .adcr f, .subr f, .sbcr f, .andr f, .orrr f, .xorr f], traps i)) ∧
    (∀ f : ShiftOne, condHolds f.cond s.flags = true → f.reg ∈ [Reg.lh, .ah, .sh, .ph] → f.shift.type ≠ .reserved →
      traps (.shft f) ∧ traps (.shfi f)) ∧
    (∀ f : ShiftReg, condHolds f.cond s.flags = true → f.r1 ∈ [Reg.lh, .ah, .sh, .ph] → f.shift.type ≠ .reserved →
      traps (.shfr f)) ∧
    (∀ f : ImmMem, condHolds f.cond s.flags = true → f.reg ∈ [Reg.lh, .ah, .sh, .ph] →
      traps (.loadOff f) ∧ traps (.loadPostOff f)) ∧
    (∀ f : RegMem, condHolds f.cond s.flags = true → f.r1 ∈ [Reg.lh, .ah, .sh, .ph] → f.shift.type ≠ .reserved →
      traps (.loadIdx f) ∧ traps (.loadPostIdx f))

/-- Where a reserved or excluded field stops an instruction whose condition holds (30_encoding.md R117, R118; 41_alu.md
R180, R202, R213; 42_memory_access.md R239; 43_control_flow.md R260; 46_undocumented.md R345; log 21, 24, 32): AF = 11, ST
= 111, and non-zero shift fields where no shift is allowed, in the instructions under their assembler names (SHFT, SHFI,
SHFR, LJMP) too; ST = 111 also in COPI and COPR of these formats. -/
def Obligations.ReservedFieldsStop : Prop :=
  ∀ (s : State),
    (∀ f : ImmAlu, condHolds f.cond s.flags = true → f.sel = .reserved →
      ∀ i ∈ [Instr.addi f, .adci f, .subi f, .sbci f, .andi f, .orri f, .xori f, .cmpi f, .tsai f, .tsxi f, .undoc08 f,
        .undoc09 f, .undoc0B f, .undoc0D f], exec i s = .refused .reservedStatusSelect) ∧
    (∀ f : ShortAlu, condHolds f.cond s.flags = true →
      (∀ i ∈ [Instr.addiShort f, .adciShort f, .subiShort f, .sbciShort f, .andiShort f, .orriShort f, .xoriShort f,
        .cmpiShort f, .tsaiShort f, .tsxiShort f, .undoc28 f, .undoc29 f, .undoc2B f, .undoc2D f],
        (f.sel = .reserved → f.shift.type ≠ .reserved → exec i s = .refused .reservedStatusSelect) ∧
        (f.sel ≠ .reserved → f.shift.type = .reserved → exec i s = .refused .reservedShiftType)) ∧
      (f.shift ≠ { type := .nul, amount := .literal 0 } → exec (.loadShort f) s = .refused .shiftFieldsNotZero) ∧
      (f.shift.type = .reserved → exec (.copiShort f) s = .refused .reservedShiftType)) ∧
    (∀ f : RegAlu, condHolds f.cond s.flags = true →
      (∀ i ∈ [Instr.addr f, .adcr f, .subr f, .sbcr f, .andr f, .orrr f, .xorr f, .cmpr f, .tsar f, .tsxr f, .undoc38 f,
        .undoc39 f, .undoc3B f, .undoc3D f],
        (f.sel = .reserved → f.shift.type ≠ .reserved → exec i s = .refused .reservedStatusSelect) ∧
        (f.sel ≠ .reserved → f.shift.type = .reserved → exec i s = .refused .reservedShiftType)) ∧
      (f.shift ≠ { type := .nul, amount := .literal 0 } → exec (.loadReg f) s = .refused .shiftFieldsNotZero) ∧
      (f.shift.type = .reserved → exec (.copr f) s = .refused .reservedShiftType)) ∧
    (∀ f : ShiftOne, condHolds f.cond s.flags = true → f.shift.type = .reserved →
      exec (.shft f) s = .refused .reservedShiftType ∧ exec (.shfi f) s = .refused .reservedShiftType) ∧
    (∀ f : ShiftReg, condHolds f.cond s.flags = true → f.shift.type = .reserved →
      exec (.shfr f) s = .refused .reservedShiftType) ∧
    (∀ f : JumpIdx, condHolds f.cond s.flags = true → f.shift ≠ { type := .nul, amount := .literal 0 } →
      exec (.ljmpIdx f) s = .refused .shiftFieldsNotZero) ∧
    (∀ f : RegMem, condHolds f.cond s.flags = true →
      (f.shift.type = .reserved → ∀ i ∈ [Instr.storIdx f, .storPreIdx f, .loadIdx f, .loadPostIdx f],
        exec i s = .refused .reservedShiftType) ∧
      (f.shift ≠ { type := .nul, amount := .literal 0 } → ∀ i ∈ [Instr.ldeaIdx f, .branIdx f, .ljsrIdx f, .brsrIdx f],
        exec i s = .refused .shiftFieldsNotZero))

/-! ### Memory -/

/-- Address formation (20_memory.md R71): the low byte of the high register over the low register; the high byte of the
high register never reaches the bus. The registers of the four pairs (10_state.md R23). The address of an indirect or
post-increment access is the pair plus the offset, of a pre-decrement access the pair less one plus the offset
(40_common_execution.md R161, 42_memory_access.md R233). That an offset is added modulo 2^16 to the low register, the
segment untouched, is the spec's own decision D2 (20_memory.md R80; log 20). -/
def Obligations.AddressFormation : Prop :=
  (∀ (hi lo : Word) (s : State) (pair : Pair) (off : Word),
    (busAddr hi lo).toNat = hi.toNat % 256 * 65536 + lo.toNat ∧
    (s.effectiveAddr pair off).toNat =
      (s.regs.get (pairHigh pair)).toNat % 256 * 65536 + ((s.regs.get (pairLow pair)).toNat + off.toNat) % 65536 ∧
    (s.preDecAddr pair off).toNat =
      (s.regs.get (pairHigh pair)).toNat % 256 * 65536 +
        ((s.regs.get (pairLow pair)).toNat + 65535 + off.toNat) % 65536) ∧
  (pairHigh .l = .lh ∧ pairLow .l = .ll) ∧ (pairHigh .a = .ah ∧ pairLow .a = .al) ∧
  (pairHigh .s = .sh ∧ pairLow .s = .sl) ∧ (pairHigh .p = .ph ∧ pairLow .p = .pl)

/-- When address arithmetic traps (20_memory.md R80; signed offsets are the spec's decision D3, log 20): SR.A is set and
the exact sum leaves the segment. -/
def Obligations.OffsetOverflow : Prop :=
  ∀ (s : State) (lo off : Word),
    (s.offsetTraps lo off = true ↔
      s.regs.sr.getLsbD 14 = true ∧ (((lo + off).toNat : Int) ≠ lo.toNat + off.toInt))

/-- STOR (42_memory_access.md R231, R232, R239): it completes in either mode when the address arithmetic does not trap and
the bus accepts the write; the data (shifted in the register-offset form) is at pair plus offset and no other byte
changed; at a device address it goes to the device and no byte of memory changes (20_memory.md R76; log 17). Model's
choice where the spec refuses: register shift counts above 15 (R148; log 8). That addresses are formed by 16-bit
arithmetic on the low register, with signed offsets for the overflow check, are the spec's decisions D2 and D3
(20_memory.md R80; log 20). -/
def Obligations.StoreCompletes : Prop :=
  ∀ (s : State), s.mem.wf = true →
    (∀ (f : ImmMem) (ea : Addr), condHolds f.cond s.flags = true → ea = s.advance.effectiveAddr f.pair f.imm →
      s.offsetTraps (s.advance.regs.get (pairLow f.pair)) f.imm = false → s.busError ea .store = false →
      ∃ t, exec (.storOff f) s = .next t ∧ Stored ea (s.advance.readReg f.reg) s t) ∧
    (∀ (f : RegMem) (ea : Addr), condHolds f.cond s.flags = true → f.shift.type ≠ .reserved →
      ea = s.advance.effectiveAddr f.pair (s.advance.readReg f.r2) →
      s.offsetTraps (s.advance.regs.get (pairLow f.pair)) (s.advance.readReg f.r2) = false →
      s.busError ea .store = false →
      ∃ t, exec (.storIdx f) s = .next t ∧
        Stored ea (s.advance.shifted f.shift (s.advance.readReg f.r1)).value s t)

/-- STOR with pre-decrement (42_memory_access.md R233, R234, R239): the data, read before the pair changes, is at the
decremented pair plus offset (or, at a device address, with the device: 20_memory.md R76; log 17), the low register of the
pair is one less, and no other byte changed. Model's choice where the spec refuses: register shift counts above 15 (R148;
log 8). That addresses are formed by 16-bit arithmetic on the low register, with signed offsets for the overflow check,
are the spec's decisions D2 and D3 (20_memory.md R80; log 20). -/
def Obligations.StorePreDecCompletes : Prop :=
  ∀ (s : State), s.mem.wf = true →
    (∀ (f : ImmMem) (ea : Addr) (lo : Word), condHolds f.cond s.flags = true →
      lo = s.advance.regs.get (pairLow f.pair) → ea = s.advance.preDecAddr f.pair f.imm →
      s.offsetTraps lo (-1) = false → s.offsetTraps (lo - 1) f.imm = false → s.busError ea .store = false →
      ∃ t, exec (.storPreOff f) s = .next t ∧ StoredPreDec f.pair ea (s.advance.readReg f.reg) s t) ∧
    (∀ (f : RegMem) (ea : Addr) (lo : Word), condHolds f.cond s.flags = true → f.shift.type ≠ .reserved →
      lo = s.advance.regs.get (pairLow f.pair) → ea = s.advance.preDecAddr f.pair (s.advance.readReg f.r2) →
      s.offsetTraps lo (-1) = false → s.offsetTraps (lo - 1) (s.advance.readReg f.r2) = false →
      s.busError ea .store = false →
      ∃ t, exec (.storPreIdx f) s = .next t ∧
        StoredPreDec f.pair ea (s.advance.shifted f.shift (s.advance.readReg f.r1)).value s t)

/-- LOAD (42_memory_access.md R235, R236, R239): the word at pair plus offset (shifted in the register-offset form) goes
into the destination; no flag and no memory changes. At a plain address the word is memory's, its two bytes the high one
first (20_memory.md R72; log 1); at an address in a device range it is the one the device presents there, the first that
is listed (20_memory.md R76; where it presents none it is left open, log 17). Model's choice where the spec refuses:
register shift counts above 15 (R148; log 8). That addresses are formed by 16-bit arithmetic on the low register, with
signed offsets for the overflow check, are the spec's decisions D2 and D3 (20_memory.md R80; log 20). -/
def Obligations.LoadCompletes : Prop :=
  ∀ (s : State),
    (∀ (f : ImmMem) (ea : Addr), condHolds f.cond s.flags = true → s.writeForbidden f.reg = false →
      ea = s.advance.effectiveAddr f.pair f.imm →
      s.offsetTraps (s.advance.regs.get (pairLow f.pair)) f.imm = false → s.busError ea .load = false →
      ∃ t, exec (.loadOff f) s = .next t ∧ Loaded f.reg (s.readWord ea) s t) ∧
    (∀ (f : RegMem) (ea : Addr), condHolds f.cond s.flags = true → f.shift.type ≠ .reserved →
      s.writeForbidden f.r1 = false → ea = s.advance.effectiveAddr f.pair (s.advance.readReg f.r2) →
      s.offsetTraps (s.advance.regs.get (pairLow f.pair)) (s.advance.readReg f.r2) = false →
      s.busError ea .load = false →
      ∃ t, exec (.loadIdx f) s = .next t ∧
        Loaded f.r1 (s.advance.shifted f.shift (s.readWord ea)).value s t) ∧
    (∀ a : Addr,
      (s.isDevice a = true ↔ ∃ d ∈ s.params.devices, d.first ≤ a ∧ a ≤ d.last) ∧
      (s.isDevice a = false → s.readWord a = s.mem.readWord a) ∧
      s.mem.readWord a = s.mem.readByte (2 * a.toNat) ++ s.mem.readByte (2 * a.toNat + 1) ∧
      (∀ (earlier later : List DeviceWord) (v : Word), s.isDevice a = true →
        s.deviceWords = earlier ++ { addr := a, value := v } :: later → (∀ d ∈ earlier, d.addr ≠ a) →
        s.readWord a = v))

/-- LOAD with post-increment (42_memory_access.md R237, R238, R239): as LOAD on the old pair, and the low register of the
pair is one more; where it is itself the destination its value is left open, the model's choice where the spec refuses
(log 12), as it does register shift counts above 15 (R148; log 8). Device addresses: log 17. That addresses are formed by
16-bit arithmetic on the low register, with signed offsets for the overflow check, are the spec's decisions D2 and D3
(20_memory.md R80; log 20). -/
def Obligations.LoadPostIncCompletes : Prop :=
  ∀ (s : State),
    (∀ (f : ImmMem) (ea : Addr) (lo : Word), condHolds f.cond s.flags = true → s.writeForbidden f.reg = false →
      lo = s.advance.regs.get (pairLow f.pair) → ea = s.advance.effectiveAddr f.pair f.imm →
      s.offsetTraps lo f.imm = false → s.offsetTraps lo 1 = false → s.busError ea .load = false →
      ∃ t, exec (.loadPostOff f) s = .next t ∧ LoadedPostInc f.reg f.pair (s.readWord ea) s t) ∧
    (∀ (f : RegMem) (ea : Addr) (lo : Word), condHolds f.cond s.flags = true → f.shift.type ≠ .reserved →
      s.writeForbidden f.r1 = false → lo = s.advance.regs.get (pairLow f.pair) →
      ea = s.advance.effectiveAddr f.pair (s.advance.readReg f.r2) →
      s.offsetTraps lo (s.advance.readReg f.r2) = false → s.offsetTraps lo 1 = false → s.busError ea .load = false →
      ∃ t, exec (.loadPostIdx f) s = .next t ∧
        LoadedPostInc f.r1 f.pair (s.advance.shifted f.shift (s.readWord ea)).value s t)

/-- Address arithmetic that leaves the segment with SR.A set is the Segment Overflow Fault, phase 3, in every instruction
that forms an address (20_memory.md R80, 60_exceptions.md R358, 40_common_execution.md R161; phase: log 18), the increment
and the decrement counting too: in STOR and BRAN in either mode, in LOAD where the destination may be written, in LDEA,
LJMP, LJSR and BRSR in supervisor mode; inside a fault handler it is the Double Fault. Model's choice where the spec
refuses first: a post-increment LOAD into the low register of its own pair (R237, R238; log 12) and register shift counts
above 15 (R239; log 8). Signed offsets: log 20. The entry a fault makes rests on the spec's decisions D1, D47 and D48, as
FaultEntry says (log 19, log 31). The order in which the faults of one instruction are detected is the spec's own decision
D35 (60_exceptions.md R367; log 29). -/
def Obligations.SegmentOverflowFault : Prop :=
  ∀ (s : State), s.canFault .segmentOverflow →
    let traps := fun (i : Instr) => faults .segmentOverflow 3 0 s (exec i s)
    (∀ (f : ImmMem) (lo : Word), condHolds f.cond s.flags = true → lo = s.advance.regs.get (pairLow f.pair) →
      (s.offsetTraps lo f.imm = true →
        traps (.storOff f) ∧ (f.pair = .p → traps (.branOff f)) ∧
        (s.writeForbidden f.reg = false → traps (.loadOff f) ∧ traps (.loadPostOff f)) ∧
        (s.protectedMode = false →
          traps (.ljsrOff f) ∧ (f.reg ∈ [Reg.lh, .ah, .sh, .ph] → traps (.ldeaOff f)) ∧
          (f.pair = .p → traps (.brsrOff f)))) ∧
      (s.offsetTraps lo 1 = true → s.writeForbidden f.reg = false → traps (.loadPostOff f)) ∧
      (s.offsetTraps lo (-1) = true ∨ s.offsetTraps (lo - 1) f.imm = true → traps (.storPreOff f))) ∧
    (∀ (f : RegMem) (lo off : Word), condHolds f.cond s.flags = true → f.shift.type ≠ .reserved →
      lo = s.advance.regs.get (pairLow f.pair) → off = s.advance.readReg f.r2 →
      (s.offsetTraps lo off = true →
        traps (.storIdx f) ∧ (s.writeForbidden f.r1 = false → traps (.loadIdx f) ∧ traps (.loadPostIdx f)) ∧
        (f.shift = { type := .nul, amount := .literal 0 } →
          (f.pair = .p → traps (.branIdx f)) ∧
          (s.protectedMode = false →
            traps (.ljsrIdx f) ∧ (f.r1 ∈ [Reg.lh, .ah, .sh, .ph] → traps (.ldeaIdx f)) ∧
            (f.pair = .p → traps (.brsrIdx f))))) ∧
      (s.offsetTraps lo 1 = true → s.writeForbidden f.r1 = false → traps (.loadPostIdx f)) ∧
      (s.offsetTraps lo (-1) = true ∨ s.offsetTraps (lo - 1) off = true → traps (.storPreIdx f))) ∧
    (s.protectedMode = false →
      (∀ f : JumpOff, condHolds f.cond s.flags = true →
        s.offsetTraps (s.advance.regs.get (pairLow f.pair)) f.imm = true → traps (.ljmpOff f)) ∧
      (∀ f : JumpIdx, condHolds f.cond s.flags = true → f.shift = { type := .nul, amount := .literal 0 } →
        s.offsetTraps (s.advance.regs.get (pairLow f.pair)) (s.advance.readReg f.r2) = true → traps (.ljmpIdx f)))

/-- A bus error on a data access is the Bus Fault, phase 4, with the address presented in the metadata; memory and
registers are as before (60_exceptions.md R356, 42_memory_access.md R241; log 16, log 18); inside a fault handler it is
the Double Fault. The platform's input lists the accesses it answers so (20_memory.md R86; log 16). Model's choice where
the spec refuses first: a post-increment LOAD into the low register of its own pair (R237, R238; log 12) and register
shift counts above 15 (R239; log 8). The entry a fault makes rests on the spec's decisions D1, D47 and D48, as FaultEntry
says (log 19, log 31). The order in which the faults of one instruction are detected is the spec's own decision D35
(60_exceptions.md R367; log 29). That addresses are formed by 16-bit arithmetic on the low register, with signed offsets
for the overflow check, are the spec's decisions D2 and D3 (20_memory.md R80; log 20). -/
def Obligations.DataBusFault : Prop :=
  (∀ (s : State), s.canFault .bus →
    (∀ (f : ImmMem) (lo : Word) (ea pre : Addr), condHolds f.cond s.flags = true →
      lo = s.advance.regs.get (pairLow f.pair) → ea = s.advance.effectiveAddr f.pair f.imm →
      pre = s.advance.preDecAddr f.pair f.imm →
      (s.offsetTraps lo f.imm = false → s.busError ea .store = true → faults .bus 4 ea s (exec (.storOff f) s)) ∧
      (s.offsetTraps lo (-1) = false → s.offsetTraps (lo - 1) f.imm = false → s.busError pre .store = true →
        faults .bus 4 pre s (exec (.storPreOff f) s)) ∧
      (s.offsetTraps lo f.imm = false → s.writeForbidden f.reg = false → s.busError ea .load = true →
        faults .bus 4 ea s (exec (.loadOff f) s) ∧
        (s.offsetTraps lo 1 = false → faults .bus 4 ea s (exec (.loadPostOff f) s)))) ∧
    (∀ (f : RegMem) (lo off : Word) (ea pre : Addr), condHolds f.cond s.flags = true → f.shift.type ≠ .reserved →
      lo = s.advance.regs.get (pairLow f.pair) → off = s.advance.readReg f.r2 →
      ea = s.advance.effectiveAddr f.pair off → pre = s.advance.preDecAddr f.pair off →
      (s.offsetTraps lo off = false → s.busError ea .store = true → faults .bus 4 ea s (exec (.storIdx f) s)) ∧
      (s.offsetTraps lo (-1) = false → s.offsetTraps (lo - 1) off = false → s.busError pre .store = true →
        faults .bus 4 pre s (exec (.storPreIdx f) s)) ∧
      (s.offsetTraps lo off = false → s.writeForbidden f.r1 = false → s.busError ea .load = true →
        faults .bus 4 ea s (exec (.loadIdx f) s) ∧
        (s.offsetTraps lo 1 = false → faults .bus 4 ea s (exec (.loadPostIdx f) s))))) ∧
  (∀ (s : State) (a : Addr) (kind : AccessKind), s.busError a kind = true ↔
    ∃ r ∈ s.busErrors, r.kind = kind ∧ r.first ≤ a ∧ a ≤ r.last)

/-! ### Control flow -/

/-- LDEA, and LJMP and RETS which are LDEA into p (43_control_flow.md R261, R262; 45_meta_instructions.md R321, R322; log
21): in supervisor mode, both registers of the destination pair are written, the high one with the source's high register,
the low one with the source's low register plus the offset; nothing else changes but the program counter. That addresses
are formed by 16-bit arithmetic on the low register, with signed offsets for the overflow check, are the spec's decisions
D2 and D3 (20_memory.md R80; log 20). -/
def Obligations.LoadEffectiveAddress : Prop :=
  ∀ (s : State), s.protectedMode = false →
    let puts := fun (i : Instr) (dst src : Pair) (off : Word) =>
      ∃ t, exec i s = .next t ∧ t.regs.get (pairHigh dst) = s.advance.regs.get (pairHigh src) ∧
        t.regs.get (pairLow dst) = s.advance.regs.get (pairLow src) + off ∧ (dst ≠ .p → movedOn s t) ∧
        OnlyRegs [pairHigh dst, pairLow dst, .pl] s t
    (∀ (f : ImmMem) (dst : Pair), condHolds f.cond s.flags = true → f.reg = pairHigh dst →
      s.offsetTraps (s.advance.regs.get (pairLow f.pair)) f.imm = false → puts (.ldeaOff f) dst f.pair f.imm) ∧
    (∀ (f : RegMem) (dst : Pair) (off : Word), condHolds f.cond s.flags = true → f.r1 = pairHigh dst →
      f.shift = { type := .nul, amount := .literal 0 } → off = s.advance.readReg f.r2 →
      s.offsetTraps (s.advance.regs.get (pairLow f.pair)) off = false → puts (.ldeaIdx f) dst f.pair off) ∧
    (∀ f : JumpOff, condHolds f.cond s.flags = true →
      s.offsetTraps (s.advance.regs.get (pairLow f.pair)) f.imm = false → puts (.ljmpOff f) .p f.pair f.imm) ∧
    (∀ (f : JumpIdx) (off : Word), condHolds f.cond s.flags = true →
      f.shift = { type := .nul, amount := .literal 0 } → off = s.advance.readReg f.r2 →
      s.offsetTraps (s.advance.regs.get (pairLow f.pair)) off = false → puts (.ljmpIdx f) .p f.pair off) ∧
    puts .rets .p .l 0

/-- BRAN (43_control_flow.md R263, R264; log 21): in either mode, `pl` becomes the address of the next instruction plus
the displacement, and nothing else changes, `ph` included. That addresses are formed by 16-bit arithmetic on the low
register, with signed offsets for the overflow check, are the spec's decisions D2 and D3 (20_memory.md R80; log 20). -/
def Obligations.Branch : Prop :=
  ∀ (s : State),
    (∀ f : ImmMem, condHolds f.cond s.flags = true → f.pair = .p → s.offsetTraps (s.regs.pl + 2) f.imm = false →
      ∃ t, exec (.branOff f) s = .next t ∧ t.regs.pl = s.regs.pl + 2 + f.imm ∧ OnlyRegs [.pl] s t) ∧
    (∀ (f : RegMem) (off : Word), condHolds f.cond s.flags = true → f.pair = .p →
      f.shift = { type := .nul, amount := .literal 0 } → off = s.advance.readReg f.r2 →
      s.offsetTraps (s.regs.pl + 2) off = false →
      ∃ t, exec (.branIdx f) s = .next t ∧ t.regs.pl = s.regs.pl + 2 + off ∧ OnlyRegs [.pl] s t)

/-- LJSR (43_control_flow.md R265, R266; log 21): in supervisor mode, l takes the address of the next instruction, p the
source pair plus the offset, both read before l is written. That addresses are formed by 16-bit arithmetic on the low
register, with signed offsets for the overflow check, are the spec's decisions D2 and D3 (20_memory.md R80; log 20). -/
def Obligations.JumpSubroutine : Prop :=
  ∀ (s : State), s.protectedMode = false →
    let calls := fun (i : Instr) (src : Pair) (off : Word) =>
      ∃ t, exec i s = .next t ∧ t.regs.lh = s.regs.ph ∧ t.regs.ll = s.regs.pl + 2 ∧
        t.regs.ph = s.advance.regs.get (pairHigh src) ∧ t.regs.pl = s.advance.regs.get (pairLow src) + off ∧
        OnlyRegs [.lh, .ll, .ph, .pl] s t
    (∀ f : ImmMem, condHolds f.cond s.flags = true →
      s.offsetTraps (s.advance.regs.get (pairLow f.pair)) f.imm = false → calls (.ljsrOff f) f.pair f.imm) ∧
    (∀ (f : RegMem) (off : Word), condHolds f.cond s.flags = true →
      f.shift = { type := .nul, amount := .literal 0 } → off = s.advance.readReg f.r2 →
      s.offsetTraps (s.advance.regs.get (pairLow f.pair)) off = false → calls (.ljsrIdx f) f.pair off)

/-- BRSR (43_control_flow.md R267, R268, the spec's own reading D7; log 22): in supervisor mode, l takes the address of
the next instruction, `pl` that address plus the displacement, and `ph` stays. That addresses are formed by 16-bit
arithmetic on the low register, with signed offsets for the overflow check, are the spec's decisions D2 and D3
(20_memory.md R80; log 20). -/
def Obligations.BranchSubroutine : Prop :=
  ∀ (s : State), s.protectedMode = false →
    let calls := fun (i : Instr) (off : Word) =>
      ∃ t, exec i s = .next t ∧ t.regs.lh = s.regs.ph ∧ t.regs.ll = s.regs.pl + 2 ∧
        t.regs.pl = s.regs.pl + 2 + off ∧ OnlyRegs [.lh, .ll, .pl] s t
    (∀ f : ImmMem, condHolds f.cond s.flags = true → f.pair = .p → s.offsetTraps (s.regs.pl + 2) f.imm = false →
      calls (.brsrOff f) f.imm) ∧
    (∀ (f : RegMem) (off : Word), condHolds f.cond s.flags = true → f.pair = .p →
      f.shift = { type := .nul, amount := .literal 0 } → off = s.advance.readReg f.r2 →
      s.offsetTraps (s.regs.pl + 2) off = false → calls (.brsrIdx f) off)

/-- The checks of the control-flow instructions (43_control_flow.md R261 to R268; log 21, log 22): LDEA, LJMP, RETS and
LJSR in protected mode are the Privilege Violation Fault; LDEA whose destination names no pair, BRAN and BRSR with a pair
other than p, and BRSR in protected mode stop. The phase code 2 is the spec's own numbering (60_exceptions.md R366, D27;
log 18). The entry a fault makes rests on the spec's decisions D1, D47 and D48, as FaultEntry says (log 19, log 31). The
order in which the faults of one instruction are detected is the spec's own decision D35 (60_exceptions.md R367; log 29).
The privilege of these instructions whatever the pairs is the spec's decision D42 (log 21). -/
def Obligations.ControlFlowChecks : Prop :=
  ∀ (s : State),
    let traps := fun (i : Instr) => faults .privilegeViolation 2 0 s (exec i s)
    (s.protectedMode = true → s.canFault .privilegeViolation →
      traps .rets ∧
      (∀ f : ImmMem, condHolds f.cond s.flags = true →
        traps (.ljsrOff f) ∧ (f.reg ∈ [Reg.lh, .ah, .sh, .ph] → traps (.ldeaOff f))) ∧
      (∀ f : RegMem, condHolds f.cond s.flags = true → f.shift = { type := .nul, amount := .literal 0 } →
        traps (.ljsrIdx f) ∧ (f.r1 ∈ [Reg.lh, .ah, .sh, .ph] → traps (.ldeaIdx f))) ∧
      (∀ f : JumpOff, condHolds f.cond s.flags = true → traps (.ljmpOff f)) ∧
      (∀ f : JumpIdx, condHolds f.cond s.flags = true → f.shift = { type := .nul, amount := .literal 0 } →
        traps (.ljmpIdx f))) ∧
    (∀ f : ImmMem, condHolds f.cond s.flags = true →
      (f.reg ∉ [Reg.lh, .ah, .sh, .ph] → exec (.ldeaOff f) s = .refused .destinationNotAPair) ∧
      (f.pair ≠ .p → exec (.branOff f) s = .refused .branchPairNotProgramCounter ∧
        exec (.brsrOff f) s = .refused .branchPairNotProgramCounter) ∧
      (f.pair = .p → s.protectedMode = true → exec (.brsrOff f) s = .refused .brsrInProtectedMode)) ∧
    (∀ f : RegMem, condHolds f.cond s.flags = true → f.shift = { type := .nul, amount := .literal 0 } →
      (f.r1 ∉ [Reg.lh, .ah, .sh, .ph] → exec (.ldeaIdx f) s = .refused .destinationNotAPair) ∧
      (f.pair ≠ .p → exec (.branIdx f) s = .refused .branchPairNotProgramCounter ∧
        exec (.brsrIdx f) s = .refused .branchPairNotProgramCounter) ∧
      (f.pair = .p → s.protectedMode = true → exec (.brsrIdx f) s = .refused .brsrInProtectedMode))

/-! ### Coprocessor calls -/

/-- EXCP (44_coprocessor.md R295, 60_exceptions.md R354; log 26): from level 0, with a vector in the range of the mode, it
enters the trap at level 1 through link[0], which saves the address of the next instruction and the full status register.
Choices in the entry: the word order of the vector, high word first, is the spec's own decision D1 (20_memory.md R73; log
19); that entry clears P and T and nothing else of the status register, and saves the level in a hidden field, are its
decisions D47 and D48 (log 31). -/
def Obligations.TrapEntry : Prop :=
  ∀ (f : UnitCall) (s : State), condHolds f.cond s.flags = true → s.level = 0 →
    (if s.protectedMode then 0x80 else 0x60) ≤ f.par.toNat → s.vectorReadable f.par →
    ∃ t, exec (.excp f) s = .next t ∧ Entered f.par 1 0 (s.regs.ph ++ (s.regs.pl + 2)) s t ∧
      t.pending = s.pending ∧ t.faultMeta = s.faultMeta ∧ t.cause = 0x11#8 ++ f.par

/-- The forms of a call (44_coprocessor.md R291, R293, R296; log 25): WAIT, by name, by COPI or by COPR with a call word
of operation 0x19, in supervisor mode sets the wait flag, and nothing else changes but the program counter and the cause
register; and in either mode COPI and COPR with the call word of one of the six named operations do what the name does.
COPR with ST = 111 is not among them (30_encoding.md R118; log 32). -/
def Obligations.CallForms : Prop :=
  ∀ (s : State),
    let waits := fun (i : Instr) =>
      ∃ t, exec i s = .next t ∧ t.waiting = true ∧ movedOn s t ∧ regsKept [.pl] s t ∧ memoryKept s t ∧
        t.level = s.level ∧ t.pending = s.pending ∧ t.links = s.links ∧ t.faultMeta = s.faultMeta ∧ InputsKept s t
    (s.protectedMode = false →
      (∀ f : UnitCall, condHolds f.cond s.flags = true → waits (.wait f)) ∧
      (∀ f : ImmAlu, condHolds f.cond s.flags = true → f.imm.extractLsb' 8 8 = 0x19 → waits (.copi f)) ∧
      (∀ f : RegAlu, condHolds f.cond s.flags = true → f.shift.type ≠ .reserved →
        (s.advance.readReg f.r3).extractLsb' 8 8 = 0x19 → waits (.copr f))) ∧
    (∀ (u : UnitCall) (g : ImmAlu) (h : RegAlu), g.cond = u.cond → h.cond = u.cond → h.shift.type ≠ .reserved →
      let calls := fun (code : BitVec 8) (i : Instr) =>
        (g.imm = code ++ u.par → exec (.copi g) s = exec i s) ∧
        (s.advance.readReg h.r3 = code ++ u.par → exec (.copr h) s = exec i s)
      calls 0x11 (.excp u) ∧ calls 0x19 (.wait u) ∧ calls 0x1A (.rete u) ∧ calls 0x1B (.rset u) ∧
        calls 0x1C (.etfr u) ∧ calls 0x1D (.ettr u))

/-- RETE (44_coprocessor.md R297, 60_exceptions.md R353, R374): in supervisor mode above level 0, program counter, status
register less bit 13, and level come from the link register of the current level, level less one. The level saved in a
hidden field of the link register is the spec's decision D48 (log 31), that bit 13 is not stored D15 (log 23). -/
def Obligations.ReturnFromException : Prop :=
  ∀ (f : UnitCall) (s : State) (k : Fin 7), condHolds f.cond s.flags = true → s.protectedMode = false →
    s.level.val = k.val + 1 →
    ∃ t, exec (.rete f) s = .next t ∧ t.pc = s.links[k].addr ∧ t.level = s.links[k].level ∧
      (∀ j, t.regs.sr.getLsbD j = (s.links[k].sr.getLsbD j && decide (j ≠ 13))) ∧
      regsKept [.sr, .ph, .pl] s t ∧ memoryKept s t ∧ t.waiting = s.waiting ∧ t.pending = s.pending ∧
      t.links = s.links ∧ t.faultMeta = s.faultMeta ∧ InputsKept s t

/-- RSET (44_coprocessor.md R298; what it clears beside the status register is the spec's decision D24, log 27): in
supervisor mode, the status register, level, wait flag and latches are cleared and control goes to vector 0x00; it stops
where that vector cannot be read (20_memory.md R78, log 16). That the word at address 0 is the high half of the program
counter and the word at 1 the low half is the spec's own decision D1 (20_memory.md R73; log 19). -/
def Obligations.SoftwareReset : Prop :=
  ∀ (f : UnitCall) (s : State), condHolds f.cond s.flags = true → s.protectedMode = false →
    (s.vectorReadable 0x00 →
      ∃ t, exec (.rset f) s = .next t ∧ t.pc = s.readWord 0 ++ s.readWord 1 ∧ t.regs.sr = 0 ∧ t.level = 0 ∧
        t.waiting = false ∧ t.pending = Pending.none ∧ regsKept [.sr, .ph, .pl] s t ∧ memoryKept s t ∧
        t.links = s.links ∧ t.faultMeta = s.faultMeta ∧ InputsKept s t) ∧
    (¬s.vectorReadable 0x00 → exec (.rset f) s = .fault .vectorBusError)

/-- ETFR (44_coprocessor.md R299; log 26): in supervisor mode, parameter bit 4 moves the address of a link register into
ah and al, bit 5 its status word into r7; index 7 is the fault metadata; an index of 8 to 15 stops. -/
def Obligations.TransferFromLink : Prop :=
  ∀ (f : UnitCall) (s : State), condHolds f.cond s.flags = true → s.protectedMode = false →
    let moves := fun (addr : BitVec 32) (sr : Word) =>
      ∃ t, exec (.etfr f) s = .next t ∧ movedOn s t ∧ regsKept [.r7, .ah, .al, .pl] s t ∧ memoryKept s t ∧
        UnitKeptButCause s t ∧
        (t.regs.ah, t.regs.al) = (if f.par.getLsbD 4 then (addr.extractLsb' 16 16, addr.extractLsb' 0 16)
          else (s.regs.ah, s.regs.al)) ∧
        t.regs.r7 = (if f.par.getLsbD 5 then sr else s.regs.r7)
    (∀ k : Fin 7, (f.par.extractLsb' 0 4).toNat = k.val → moves s.links[k].addr s.links[k].sr) ∧
    (f.par.extractLsb' 0 4 = 7 → moves s.faultMeta.addr s.faultMeta.sr) ∧
    (8 ≤ (f.par.extractLsb' 0 4).toNat → exec (.etfr f) s = .refused .linkIndexOutOfRange)

/-- ETTR (44_coprocessor.md R300; log 26): in supervisor mode, parameter bit 4 moves ah and al into the address of a link
register, bit 5 moves r7 into its status word; the hidden level and every other link register stay; index 7 is the fault
metadata; an index of 8 to 15 stops. The hidden level is the spec's decision D48 (log 31). -/
def Obligations.TransferToLink : Prop :=
  ∀ (f : UnitCall) (s : State), condHolds f.cond s.flags = true → s.protectedMode = false →
    let addr := fun (old : BitVec 32) => if f.par.getLsbD 4 then s.regs.ah ++ s.regs.al else old
    let sr := fun (old : Word) => if f.par.getLsbD 5 then s.regs.r7 else old
    let moves := fun (i : Instr) (t : State) =>
      exec i s = .next t ∧ movedOn s t ∧ regsKept [.pl] s t ∧ memoryKept s t ∧ t.level = s.level ∧
        t.waiting = s.waiting ∧ t.pending = s.pending ∧ InputsKept s t
    (∀ k : Fin 7, (f.par.extractLsb' 0 4).toNat = k.val →
      ∃ t, moves (.ettr f) t ∧ t.faultMeta = s.faultMeta ∧
        t.links[k] = { addr := addr s.links[k].addr, sr := sr s.links[k].sr, level := s.links[k].level } ∧
        ∀ j : Fin 7, j ≠ k → t.links[j] = s.links[j]) ∧
    (f.par.extractLsb' 0 4 = 7 →
      ∃ t, moves (.ettr f) t ∧ t.links = s.links ∧
        t.faultMeta = { addr := addr s.faultMeta.addr, sr := sr s.faultMeta.sr }) ∧
    (8 ≤ (f.par.extractLsb' 0 4).toNat → exec (.ettr f) s = .refused .linkIndexOutOfRange)

/-- A call of an absent unit or an unassigned operation is the Invalid Opcode Fault, phase 2 (44_coprocessor.md R294,
R301, R302; 60_exceptions.md R359; log 18, 25, 36), by COPI, by COPR, and by the short COPI where its extended parameter
names an absent unit (inside a fault handler it is the Double Fault); a call of coprocessor 0x0 stops, and so does an
optional unit the platform has, for which the spec gives no operation (00_scope.md R4, R6). The short form calls
coprocessor 0x0 below 0x80; from 0x80 up its extension is the implementation's (log 10), with zeros a call of 0x0 and with
ones of 0xF; in protected mode with 0xF present: CallChecks. The entry a fault makes rests on the spec's decisions D1, D47
and D48, as FaultEntry says (log 19, log 31). -/
def Obligations.InvalidCalls : Prop :=
  ∀ (s : State), s.canFault .invalidOpcode →
    let traps := fun (i : Instr) => faults .invalidOpcode 2 0 s (exec i s)
    let invalid := fun (w : Word) =>
      (w.extractLsb' 12 4 ≠ 0 ∧ w.extractLsb' 12 4 ≠ 1 ∧ w.extractLsb' 12 4 ∉ s.params.optionalUnits) ∨
        (w.extractLsb' 12 4 = 1 ∧ (s.protectedMode = false ∨ w.getLsbD 11 = false) ∧
          w.extractLsb' 8 4 ∉ [0x1#4, 0x9#4, 0xA#4, 0xB#4, 0xC#4, 0xD#4])
    let optional := fun (w : Word) =>
      w.extractLsb' 12 4 ≠ 0 ∧ w.extractLsb' 12 4 ≠ 1 ∧ w.extractLsb' 12 4 ∈ s.params.optionalUnits ∧
        (s.protectedMode = false ∨ w.getLsbD 11 = false)
    (∀ f : ImmAlu, condHolds f.cond s.flags = true →
      (invalid f.imm → traps (.copi f)) ∧
      (optional f.imm → exec (.copi f) s = .refused .optionalUnitCall) ∧
      (f.imm.extractLsb' 12 4 = 0 → exec (.copi f) s = .refused .processingUnitCall)) ∧
    (∀ (f : RegAlu) (w : Word), condHolds f.cond s.flags = true → f.shift.type ≠ .reserved →
      w = s.advance.readReg f.r3 →
      (invalid w → traps (.copr f)) ∧ (optional w → exec (.copr f) s = .refused .optionalUnitCall) ∧
      (w.extractLsb' 12 4 = 0 → exec (.copr f) s = .refused .processingUnitCall)) ∧
    (∀ f : ShortAlu, condHolds f.cond s.flags = true → f.shift.type ≠ .reserved →
      (f.imm8.toNat < 0x80 → exec (.copiShort f) s = .refused .processingUnitCall) ∧
      (0x80 ≤ f.imm8.toNat →
        (ext8 f.imm8 = 0x00#8 ++ f.imm8 ∧ exec (.copiShort f) s = .refused .processingUnitCall) ∨
        (ext8 f.imm8 = 0xFF#8 ++ f.imm8 ∧ (0xF#4 ∉ s.params.optionalUnits → traps (.copiShort f)) ∧
          (0xF#4 ∈ s.params.optionalUnits → s.protectedMode = false →
            exec (.copiShort f) s = .refused .optionalUnitCall))))

/-- The checks before an operation of the exception unit (44_coprocessor.md R294, R295, R297; 60_exceptions.md R360; log
18, log 26): in protected mode WAIT, RETE, RSET, ETFR, ETTR, any call of operation 0x8 to 0xF of a unit that is present,
and EXCP below vector 0x80 are the Privilege Violation Fault (inside a fault handler, the Double Fault); EXCP below 0x60
in supervisor mode, EXCP inside a handler and RETE at level 0 stop. The short COPI from 0x80 up with unit 0xF present is
such a call where its parameter is extended with ones, and a call of coprocessor 0x0, which stops, where with zeros (log
10, log 36). That the check of privilege comes before that of the operation, so that the unassigned operations 0x8, 0xE
and 0xF in protected mode are the Privilege Violation and not the Invalid Opcode Fault, is the spec's own order (R294,
D18, D19), and so is that COPR takes its call word from R3 (D17): log 25. The entry a fault makes rests on the spec's
decisions D1, D47 and D48, as FaultEntry says (log 19, log 31). -/
def Obligations.CallChecks : Prop :=
  ∀ (s : State),
    let traps := fun (i : Instr) => faults .privilegeViolation 2 0 s (exec i s)
    let callable := fun (w : Word) =>
      w.extractLsb' 12 4 = 1 ∨ (w.extractLsb' 12 4 ≠ 0 ∧ w.extractLsb' 12 4 ∈ s.params.optionalUnits)
    (s.protectedMode = true → s.canFault .privilegeViolation →
      (∀ f : UnitCall, condHolds f.cond s.flags = true →
        (∀ i ∈ [Instr.wait f, .rete f, .rset f, .etfr f, .ettr f], traps i) ∧
        (f.par.toNat < 0x80 → traps (.excp f))) ∧
      (∀ f : ImmAlu, condHolds f.cond s.flags = true → callable f.imm → f.imm.getLsbD 11 = true →
        traps (.copi f)) ∧
      (∀ (f : RegAlu) (w : Word), condHolds f.cond s.flags = true → f.shift.type ≠ .reserved →
        w = s.advance.readReg f.r3 → callable w → w.getLsbD 11 = true → traps (.copr f)) ∧
      (∀ f : ShortAlu, condHolds f.cond s.flags = true → f.shift.type ≠ .reserved → 0x80 ≤ f.imm8.toNat →
        0xF#4 ∈ s.params.optionalUnits →
        (ext8 f.imm8 = 0x00#8 ++ f.imm8 ∧ exec (.copiShort f) s = .refused .processingUnitCall) ∨
        (ext8 f.imm8 = 0xFF#8 ++ f.imm8 ∧ traps (.copiShort f)))) ∧
    (∀ f : UnitCall, condHolds f.cond s.flags = true →
      (s.protectedMode = false → f.par.toNat < 0x60 → exec (.excp f) s = .refused .excpVectorOutOfRange) ∧
      (s.level ≠ 0 → (if s.protectedMode then 0x80 else 0x60) ≤ f.par.toNat →
        exec (.excp f) s = .refused .excpInsideHandler) ∧
      (s.protectedMode = false → s.level = 0 → exec (.rete f) s = .refused .reteOutsideHandler))

/-! ### Whole-machine claims -/

/-- A trap and its return (44_coprocessor.md R295, R297; 60_exceptions.md R354, R374): from any state of the machine in
which EXCP is taken, RETE run in the handler's first state goes back to the instruction after the EXCP with the status
register, the level and every register but the program counter as they were. The vector's word order is the spec's
decision D1 (log 19), the saved level's hidden field D48, and that entry clears only P and T D47 (log 31). -/
def Obligations.TrapReturns : Prop :=
  ∀ (f g : UnitCall) (s : State), s.Inv → condHolds f.cond s.flags = true → g.cond = .al → s.level = 0 →
    (if s.protectedMode then 0x80 else 0x60) ≤ f.par.toNat → s.vectorReadable f.par →
    ∃ t u, exec (.excp f) s = .next t ∧ exec (.rete g) t = .next u ∧
      movedOn s u ∧ regsKept [.pl] s u ∧ memoryKept s u ∧ u.level = s.level ∧ u.pending = s.pending ∧
      u.faultMeta = s.faultMeta

/-- The invariant holds in every state a step leads to, whatever the state it starts from, if it holds there: memory keeps
its canonical form and bit 13 of the stored status register stays clear (10_state.md R38; log 2). That bit 13 is not
stored is the spec's decision D15 (log 23). -/
def Obligations.InvariantKept : Prop :=
  ∀ s t : State, s.Inv → step s = .next t → t.Inv

/-- Hardware reset (70_reset_and_hazards.md R420, R421; log 5): with any memory image in canonical form, control starts at
the words of vector 0x00, the status register is clear, the level is 0, nothing is pending and the machine does not wait;
the invariant holds there, and at `State.reset`, which is reset with empty memory. That the word at address 0 is the high
half of the program counter and the word at 1 the low half is the spec's own decision D1 (20_memory.md R73; log 19). -/
def Obligations.ResetState : Prop :=
  (∀ m : Memory, m.wf = true →
    (hardwareReset m).pc = m.readWord 0 ++ m.readWord 1 ∧ (hardwareReset m).regs.sr = 0 ∧
    (hardwareReset m).level = 0 ∧ (hardwareReset m).waiting = false ∧
    (hardwareReset m).pending = Pending.none ∧ (hardwareReset m).mem = m ∧ (hardwareReset m).Inv) ∧
  State.reset = hardwareReset [] ∧ State.reset.Inv

/-- Protected mode (60_exceptions.md R378, R379): a step from protected mode either stays in it and leaves the four high
registers, the upper byte of the status register, the level and the link registers as they were, or enters an exception:
then control is at an address a vector holds, in supervisor mode above level 0, with the segments of l, a and s as they
were. The vector's word order is the spec's decision D1 (log 19), that entry clears only P and T D47 (log 31). -/
def Obligations.ProtectedModeContained : Prop :=
  ∀ s t : State, s.protectedMode = true → step s = .next t →
    (t.protectedMode = true ∧ t.regs.lh = s.regs.lh ∧ t.regs.ah = s.regs.ah ∧ t.regs.sh = s.regs.sh ∧
      t.regs.ph = s.regs.ph ∧ t.regs.sr.extractLsb' 8 8 = s.regs.sr.extractLsb' 8 8 ∧ t.level = s.level ∧
      t.links = s.links ∧ t.faultMeta = s.faultMeta) ∨
    (t.protectedMode = false ∧ t.level ≠ 0 ∧ (∃ v : BitVec 8, t.pc = t.vectorTarget v) ∧ t.regs.lh = s.regs.lh ∧
      t.regs.ah = s.regs.ah ∧ t.regs.sh = s.regs.sh)
end

