-- ==== Sys2Proof/Laws/State.lean ====
section
/-! SUPPORT. One lemma per field and update of the state, and reading a register after writing one, so that no proof unfolds
a record update. -/

namespace Sys2Proof.Machine

/-! ### The register file -/

/-- Reading a register after a store to the register file. -/
theorem RegFile.get_set (f : RegFile) (r q : Reg) (v : Word) : (f.set r v).get q = if q = r then v else f.get q := by
  cases r <;> cases q <;> rfl

@[simp] theorem RegFile.get_set_self (f : RegFile) (r : Reg) (v : Word) : (f.set r v).get r = v := by
  simp [RegFile.get_set]

theorem RegFile.get_set_ne (f : RegFile) {r q : Reg} (v : Word) (h : q ≠ r) : (f.set r v).get q = f.get q := by
  simp [RegFile.get_set, h]

@[simp] theorem RegFile.get_sr (f : RegFile) : f.get .sr = f.sr := rfl

@[simp] theorem RegFile.get_r1 (f : RegFile) : f.get .r1 = f.r1 := rfl

@[simp] theorem RegFile.get_r2 (f : RegFile) : f.get .r2 = f.r2 := rfl

@[simp] theorem RegFile.get_r3 (f : RegFile) : f.get .r3 = f.r3 := rfl

@[simp] theorem RegFile.get_r4 (f : RegFile) : f.get .r4 = f.r4 := rfl

@[simp] theorem RegFile.get_r5 (f : RegFile) : f.get .r5 = f.r5 := rfl

@[simp] theorem RegFile.get_r6 (f : RegFile) : f.get .r6 = f.r6 := rfl

@[simp] theorem RegFile.get_r7 (f : RegFile) : f.get .r7 = f.r7 := rfl

@[simp] theorem RegFile.get_lh (f : RegFile) : f.get .lh = f.lh := rfl

@[simp] theorem RegFile.get_ll (f : RegFile) : f.get .ll = f.ll := rfl

@[simp] theorem RegFile.get_ah (f : RegFile) : f.get .ah = f.ah := rfl

@[simp] theorem RegFile.get_al (f : RegFile) : f.get .al = f.al := rfl

@[simp] theorem RegFile.get_sh (f : RegFile) : f.get .sh = f.sh := rfl

@[simp] theorem RegFile.get_sl (f : RegFile) : f.get .sl = f.sl := rfl

@[simp] theorem RegFile.get_ph (f : RegFile) : f.get .ph = f.ph := rfl

@[simp] theorem RegFile.get_pl (f : RegFile) : f.get .pl = f.pl := rfl

theorem RegFile.set_sr (f : RegFile) (r : Reg) (v : Word) :
    (f.set r v).sr = if .sr = r then v else f.sr := RegFile.get_set f r .sr v

theorem RegFile.set_r1 (f : RegFile) (r : Reg) (v : Word) :
    (f.set r v).r1 = if .r1 = r then v else f.r1 := RegFile.get_set f r .r1 v

theorem RegFile.set_r2 (f : RegFile) (r : Reg) (v : Word) :
    (f.set r v).r2 = if .r2 = r then v else f.r2 := RegFile.get_set f r .r2 v

theorem RegFile.set_r3 (f : RegFile) (r : Reg) (v : Word) :
    (f.set r v).r3 = if .r3 = r then v else f.r3 := RegFile.get_set f r .r3 v

theorem RegFile.set_r4 (f : RegFile) (r : Reg) (v : Word) :
    (f.set r v).r4 = if .r4 = r then v else f.r4 := RegFile.get_set f r .r4 v

theorem RegFile.set_r5 (f : RegFile) (r : Reg) (v : Word) :
    (f.set r v).r5 = if .r5 = r then v else f.r5 := RegFile.get_set f r .r5 v

theorem RegFile.set_r6 (f : RegFile) (r : Reg) (v : Word) :
    (f.set r v).r6 = if .r6 = r then v else f.r6 := RegFile.get_set f r .r6 v

theorem RegFile.set_r7 (f : RegFile) (r : Reg) (v : Word) :
    (f.set r v).r7 = if .r7 = r then v else f.r7 := RegFile.get_set f r .r7 v

theorem RegFile.set_lh (f : RegFile) (r : Reg) (v : Word) :
    (f.set r v).lh = if .lh = r then v else f.lh := RegFile.get_set f r .lh v

theorem RegFile.set_ll (f : RegFile) (r : Reg) (v : Word) :
    (f.set r v).ll = if .ll = r then v else f.ll := RegFile.get_set f r .ll v

theorem RegFile.set_ah (f : RegFile) (r : Reg) (v : Word) :
    (f.set r v).ah = if .ah = r then v else f.ah := RegFile.get_set f r .ah v

theorem RegFile.set_al (f : RegFile) (r : Reg) (v : Word) :
    (f.set r v).al = if .al = r then v else f.al := RegFile.get_set f r .al v

theorem RegFile.set_sh (f : RegFile) (r : Reg) (v : Word) :
    (f.set r v).sh = if .sh = r then v else f.sh := RegFile.get_set f r .sh v

theorem RegFile.set_sl (f : RegFile) (r : Reg) (v : Word) :
    (f.set r v).sl = if .sl = r then v else f.sl := RegFile.get_set f r .sl v

theorem RegFile.set_ph (f : RegFile) (r : Reg) (v : Word) :
    (f.set r v).ph = if .ph = r then v else f.ph := RegFile.get_set f r .ph v

theorem RegFile.set_pl (f : RegFile) (r : Reg) (v : Word) :
    (f.set r v).pl = if .pl = r then v else f.pl := RegFile.get_set f r .pl v

/-! ### Storing a register -/

@[simp] theorem State.setReg_regs (s : State) (r : Reg) (v : Word) : (s.setReg r v).regs = s.regs.set r v := rfl

@[simp] theorem State.setReg_level (s : State) (r : Reg) (v : Word) : (s.setReg r v).level = s.level := rfl

@[simp] theorem State.setReg_waiting (s : State) (r : Reg) (v : Word) : (s.setReg r v).waiting = s.waiting := rfl

@[simp] theorem State.setReg_pending (s : State) (r : Reg) (v : Word) : (s.setReg r v).pending = s.pending := rfl

@[simp] theorem State.setReg_links (s : State) (r : Reg) (v : Word) : (s.setReg r v).links = s.links := rfl

@[simp] theorem State.setReg_faultMeta (s : State) (r : Reg) (v : Word) : (s.setReg r v).faultMeta = s.faultMeta := rfl

@[simp] theorem State.setReg_cause (s : State) (r : Reg) (v : Word) : (s.setReg r v).cause = s.cause := rfl

@[simp] theorem State.setReg_mem (s : State) (r : Reg) (v : Word) : (s.setReg r v).mem = s.mem := rfl

@[simp] theorem State.setReg_irqEvents (s : State) (r : Reg) (v : Word) : (s.setReg r v).irqEvents = s.irqEvents := rfl

@[simp] theorem State.setReg_busErrors (s : State) (r : Reg) (v : Word) : (s.setReg r v).busErrors = s.busErrors := rfl

@[simp] theorem State.setReg_params (s : State) (r : Reg) (v : Word) : (s.setReg r v).params = s.params := rfl

@[simp] theorem State.setReg_deviceWords (s : State) (r : Reg) (v : Word) :
    (s.setReg r v).deviceWords = s.deviceWords := rfl

@[simp] theorem State.setReg_deviceEvents (s : State) (r : Reg) (v : Word) :
    (s.setReg r v).deviceEvents = s.deviceEvents := rfl

@[simp] theorem State.setReg_deviceWrites (s : State) (r : Reg) (v : Word) :
    (s.setReg r v).deviceWrites = s.deviceWrites := rfl

@[simp] theorem State.setReg_freeCount (s : State) (r : Reg) (v : Word) : (s.setReg r v).freeCount = s.freeCount := rfl

/-! ### Past the instruction -/

@[simp] theorem State.advance_regs (s : State) : s.advance.regs = s.regs.set .pl (s.regs.pl + 2) := rfl

@[simp] theorem State.advance_level (s : State) : s.advance.level = s.level := rfl

@[simp] theorem State.advance_waiting (s : State) : s.advance.waiting = s.waiting := rfl

@[simp] theorem State.advance_pending (s : State) : s.advance.pending = s.pending := rfl

@[simp] theorem State.advance_links (s : State) : s.advance.links = s.links := rfl

@[simp] theorem State.advance_faultMeta (s : State) : s.advance.faultMeta = s.faultMeta := rfl

@[simp] theorem State.advance_cause (s : State) : s.advance.cause = s.cause := rfl

@[simp] theorem State.advance_mem (s : State) : s.advance.mem = s.mem := rfl

@[simp] theorem State.advance_irqEvents (s : State) : s.advance.irqEvents = s.irqEvents := rfl

@[simp] theorem State.advance_busErrors (s : State) : s.advance.busErrors = s.busErrors := rfl

@[simp] theorem State.advance_params (s : State) : s.advance.params = s.params := rfl

@[simp] theorem State.advance_deviceWords (s : State) : s.advance.deviceWords = s.deviceWords := rfl

@[simp] theorem State.advance_deviceEvents (s : State) : s.advance.deviceEvents = s.deviceEvents := rfl

@[simp] theorem State.advance_deviceWrites (s : State) : s.advance.deviceWrites = s.deviceWrites := rfl

@[simp] theorem State.advance_freeCount (s : State) : s.advance.freeCount = s.freeCount := rfl

/-! ### Setting the program counter -/

@[simp] theorem State.setPc_regs (s : State) (a : BitVec 32) :
    (s.setPc a).regs = (s.regs.set .ph (a.extractLsb' 16 16)).set .pl (a.extractLsb' 0 16) := rfl

@[simp] theorem State.setPc_level (s : State) (a : BitVec 32) : (s.setPc a).level = s.level := rfl

@[simp] theorem State.setPc_waiting (s : State) (a : BitVec 32) : (s.setPc a).waiting = s.waiting := rfl

@[simp] theorem State.setPc_pending (s : State) (a : BitVec 32) : (s.setPc a).pending = s.pending := rfl

@[simp] theorem State.setPc_links (s : State) (a : BitVec 32) : (s.setPc a).links = s.links := rfl

@[simp] theorem State.setPc_faultMeta (s : State) (a : BitVec 32) : (s.setPc a).faultMeta = s.faultMeta := rfl

@[simp] theorem State.setPc_cause (s : State) (a : BitVec 32) : (s.setPc a).cause = s.cause := rfl

@[simp] theorem State.setPc_mem (s : State) (a : BitVec 32) : (s.setPc a).mem = s.mem := rfl

@[simp] theorem State.setPc_irqEvents (s : State) (a : BitVec 32) : (s.setPc a).irqEvents = s.irqEvents := rfl

@[simp] theorem State.setPc_busErrors (s : State) (a : BitVec 32) : (s.setPc a).busErrors = s.busErrors := rfl

@[simp] theorem State.setPc_params (s : State) (a : BitVec 32) : (s.setPc a).params = s.params := rfl

@[simp] theorem State.setPc_deviceWords (s : State) (a : BitVec 32) : (s.setPc a).deviceWords = s.deviceWords := rfl

@[simp] theorem State.setPc_deviceEvents (s : State) (a : BitVec 32) : (s.setPc a).deviceEvents = s.deviceEvents := rfl

@[simp] theorem State.setPc_deviceWrites (s : State) (a : BitVec 32) : (s.setPc a).deviceWrites = s.deviceWrites := rfl

@[simp] theorem State.setPc_freeCount (s : State) (a : BitVec 32) : (s.setPc a).freeCount = s.freeCount := rfl

/-- The program counter after it is set. -/
@[simp] theorem State.setPc_pc (s : State) (a : BitVec 32) : (s.setPc a).pc = a := by
  simp only [State.pc, State.setPc_regs, RegFile.set_ph, RegFile.set_pl]
  ext i hi
  simp
  grind

/-! ### Setting the flags -/

@[simp] theorem State.setFlags_regs (s : State) (f : Flags) :
    (s.setFlags f).regs = s.regs.set .sr (s.regs.sr.extractLsb' 4 12 ++ f.bits) := rfl

@[simp] theorem State.setFlags_level (s : State) (x : Flags) : (s.setFlags x).level = s.level := rfl

@[simp] theorem State.setFlags_waiting (s : State) (x : Flags) : (s.setFlags x).waiting = s.waiting := rfl

@[simp] theorem State.setFlags_pending (s : State) (x : Flags) : (s.setFlags x).pending = s.pending := rfl

@[simp] theorem State.setFlags_links (s : State) (x : Flags) : (s.setFlags x).links = s.links := rfl

@[simp] theorem State.setFlags_faultMeta (s : State) (x : Flags) : (s.setFlags x).faultMeta = s.faultMeta := rfl

@[simp] theorem State.setFlags_cause (s : State) (x : Flags) : (s.setFlags x).cause = s.cause := rfl

@[simp] theorem State.setFlags_mem (s : State) (x : Flags) : (s.setFlags x).mem = s.mem := rfl

@[simp] theorem State.setFlags_irqEvents (s : State) (x : Flags) : (s.setFlags x).irqEvents = s.irqEvents := rfl

@[simp] theorem State.setFlags_busErrors (s : State) (x : Flags) : (s.setFlags x).busErrors = s.busErrors := rfl

@[simp] theorem State.setFlags_params (s : State) (x : Flags) : (s.setFlags x).params = s.params := rfl

@[simp] theorem State.setFlags_deviceWords (s : State) (x : Flags) : (s.setFlags x).deviceWords = s.deviceWords := rfl

@[simp] theorem State.setFlags_deviceEvents (s : State) (x : Flags) : (s.setFlags x).deviceEvents = s.deviceEvents := rfl

@[simp] theorem State.setFlags_deviceWrites (s : State) (x : Flags) : (s.setFlags x).deviceWrites = s.deviceWrites := rfl

@[simp] theorem State.setFlags_freeCount (s : State) (x : Flags) : (s.setFlags x).freeCount = s.freeCount := rfl

/-- The flags read back as they were set. -/
@[simp] theorem State.setFlags_flags (s : State) (f : Flags) : (s.setFlags f).flags = f := by
  have h : ∀ i, i < 4 → (s.regs.sr.extractLsb' 4 12 ++ f.bits).getLsbD i = f.bits.getLsbD i := by
    intro i hi
    exact BitVec.getLsbD_append.trans (by simp [hi])
  obtain ⟨n, z, c, v⟩ := f
  simp only [State.flags, State.setFlags_regs, RegFile.set_sr, if_true]
  rw [h 1 (by omega), h 0 (by omega), h 2 (by omega), h 3 (by omega)]
  cases n <;> cases z <;> cases c <;> cases v <;> rfl

/-! ### Writing a register as an instruction does -/

/-- `RegWrite` is a store of one register. -/
theorem State.writeReg_eq (s : State) (r : Reg) (v : Word) :
    s.writeReg r v = s.setReg r (if r = .sr then
      (if s.protectedMode then (s.regs.sr &&& 0xFF00#16) ||| (v &&& 0x00FF#16) else dropEA v) else v) := by
  unfold State.writeReg
  split <;> simp_all

@[simp] theorem State.writeReg_level (s : State) (r : Reg) (v : Word) : (s.writeReg r v).level = s.level := by
  simp [State.writeReg_eq]

@[simp] theorem State.writeReg_waiting (s : State) (r : Reg) (v : Word) : (s.writeReg r v).waiting = s.waiting := by
  simp [State.writeReg_eq]

@[simp] theorem State.writeReg_pending (s : State) (r : Reg) (v : Word) : (s.writeReg r v).pending = s.pending := by
  simp [State.writeReg_eq]

@[simp] theorem State.writeReg_links (s : State) (r : Reg) (v : Word) : (s.writeReg r v).links = s.links := by
  simp [State.writeReg_eq]

@[simp] theorem State.writeReg_faultMeta (s : State) (r : Reg) (v : Word) : (s.writeReg r v).faultMeta = s.faultMeta := by
  simp [State.writeReg_eq]

@[simp] theorem State.writeReg_cause (s : State) (r : Reg) (v : Word) : (s.writeReg r v).cause = s.cause := by
  simp [State.writeReg_eq]

@[simp] theorem State.writeReg_mem (s : State) (r : Reg) (v : Word) : (s.writeReg r v).mem = s.mem := by
  simp [State.writeReg_eq]

@[simp] theorem State.writeReg_irqEvents (s : State) (r : Reg) (v : Word) : (s.writeReg r v).irqEvents = s.irqEvents := by
  simp [State.writeReg_eq]

@[simp] theorem State.writeReg_busErrors (s : State) (r : Reg) (v : Word) : (s.writeReg r v).busErrors = s.busErrors := by
  simp [State.writeReg_eq]

@[simp] theorem State.writeReg_params (s : State) (r : Reg) (v : Word) : (s.writeReg r v).params = s.params := by
  simp [State.writeReg_eq]

@[simp] theorem State.writeReg_deviceWords (s : State) (r : Reg) (v : Word) :
    (s.writeReg r v).deviceWords = s.deviceWords := by
  simp [State.writeReg_eq]

@[simp] theorem State.writeReg_deviceEvents (s : State) (r : Reg) (v : Word) :
    (s.writeReg r v).deviceEvents = s.deviceEvents := by
  simp [State.writeReg_eq]

@[simp] theorem State.writeReg_deviceWrites (s : State) (r : Reg) (v : Word) :
    (s.writeReg r v).deviceWrites = s.deviceWrites := by
  simp [State.writeReg_eq]

@[simp] theorem State.writeReg_freeCount (s : State) (r : Reg) (v : Word) : (s.writeReg r v).freeCount = s.freeCount := by
  simp [State.writeReg_eq]

/-- A write of a register leaves the others alone. -/
theorem State.writeReg_get_ne (s : State) {r q : Reg} (v : Word) (h : q ≠ r) :
    (s.writeReg r v).regs.get q = s.regs.get q := by
  simp [State.writeReg_eq, RegFile.get_set_ne _ _ h]

/-- A plain register takes the word. -/
theorem State.writeReg_get_self (s : State) {r : Reg} (v : Word) (h : r ≠ .sr) : (s.writeReg r v).regs.get r = v := by
  simp [State.writeReg_eq, h]

/-! ### What a state that differs in other fields has in common -/

@[simp] theorem State.protectedMode_advance (s : State) : s.advance.protectedMode = s.protectedMode := by
  simp [State.protectedMode, RegFile.set_sr]

@[simp] theorem State.flags_advance (s : State) : s.advance.flags = s.flags := by
  simp [State.flags, RegFile.set_sr]

@[simp] theorem State.trapOverflow_advance (s : State) : s.advance.trapOverflow = s.trapOverflow := by
  simp [State.trapOverflow, RegFile.set_sr]

@[simp] theorem State.srFull_advance (s : State) : s.advance.srFull = s.srFull := by
  simp [State.srFull, RegFile.set_sr]

@[simp] theorem State.isDevice_advance (s : State) (a : Addr) : s.advance.isDevice a = s.isDevice a := rfl

@[simp] theorem State.readWord_advance (s : State) (a : Addr) : s.advance.readWord a = s.readWord a := rfl

@[simp] theorem State.faultCode_advance (s : State) (f : FaultKind) : s.advance.faultCode f = s.faultCode f := rfl

/-! ### Storing a word -/

/-- A store to a plain address goes to memory. -/
theorem State.writeWord_of_plain {s : State} {a : Addr} (v : Word) (h : s.isDevice a = false) :
    s.writeWord a v = { s with mem := s.mem.writeWord a v } := by
  unfold State.writeWord
  rw [h]
  rfl

/-- A store to a device address goes to the device. -/
theorem State.writeWord_of_device {s : State} {a : Addr} (v : Word) (h : s.isDevice a = true) :
    s.writeWord a v = s.deviceWrite a v := if_pos h

/-- A store changes memory or the output to the devices, nothing else. -/
theorem State.writeWord_shape (s : State) (a : Addr) (v : Word) :
    ∃ m d, s.writeWord a v = { s with mem := m, deviceWrites := d } := by
  cases h : s.isDevice a
  · exact ⟨_, _, State.writeWord_of_plain v h⟩
  · exact ⟨_, _, State.writeWord_of_device v h⟩

@[simp] theorem State.writeWord_regs (s : State) (a : Addr) (v : Word) : (s.writeWord a v).regs = s.regs := by
  obtain ⟨m, d, e⟩ := s.writeWord_shape a v
  rw [e]

@[simp] theorem State.writeWord_level (s : State) (a : Addr) (v : Word) : (s.writeWord a v).level = s.level := by
  obtain ⟨m, d, e⟩ := s.writeWord_shape a v
  rw [e]

@[simp] theorem State.writeWord_waiting (s : State) (a : Addr) (v : Word) : (s.writeWord a v).waiting = s.waiting := by
  obtain ⟨m, d, e⟩ := s.writeWord_shape a v
  rw [e]

@[simp] theorem State.writeWord_pending (s : State) (a : Addr) (v : Word) : (s.writeWord a v).pending = s.pending := by
  obtain ⟨m, d, e⟩ := s.writeWord_shape a v
  rw [e]

@[simp] theorem State.writeWord_links (s : State) (a : Addr) (v : Word) : (s.writeWord a v).links = s.links := by
  obtain ⟨m, d, e⟩ := s.writeWord_shape a v
  rw [e]

@[simp] theorem State.writeWord_faultMeta (s : State) (a : Addr) (v : Word) :
    (s.writeWord a v).faultMeta = s.faultMeta := by
  obtain ⟨m, d, e⟩ := s.writeWord_shape a v
  rw [e]

@[simp] theorem State.writeWord_cause (s : State) (a : Addr) (v : Word) : (s.writeWord a v).cause = s.cause := by
  obtain ⟨m, d, e⟩ := s.writeWord_shape a v
  rw [e]

@[simp] theorem State.writeWord_irqEvents (s : State) (a : Addr) (v : Word) :
    (s.writeWord a v).irqEvents = s.irqEvents := by
  obtain ⟨m, d, e⟩ := s.writeWord_shape a v
  rw [e]

@[simp] theorem State.writeWord_busErrors (s : State) (a : Addr) (v : Word) :
    (s.writeWord a v).busErrors = s.busErrors := by
  obtain ⟨m, d, e⟩ := s.writeWord_shape a v
  rw [e]

@[simp] theorem State.writeWord_params (s : State) (a : Addr) (v : Word) : (s.writeWord a v).params = s.params := by
  obtain ⟨m, d, e⟩ := s.writeWord_shape a v
  rw [e]

@[simp] theorem State.writeWord_deviceWords (s : State) (a : Addr) (v : Word) :
    (s.writeWord a v).deviceWords = s.deviceWords := by
  obtain ⟨m, d, e⟩ := s.writeWord_shape a v
  rw [e]

@[simp] theorem State.writeWord_deviceEvents (s : State) (a : Addr) (v : Word) :
    (s.writeWord a v).deviceEvents = s.deviceEvents := by
  obtain ⟨m, d, e⟩ := s.writeWord_shape a v
  rw [e]

@[simp] theorem State.writeWord_freeCount (s : State) (a : Addr) (v : Word) :
    (s.writeWord a v).freeCount = s.freeCount := by
  obtain ⟨m, d, e⟩ := s.writeWord_shape a v
  rw [e]

/-! ### Writing a pair -/

@[simp] theorem State.setPair_regs (s : State) (pr : Pair) (h l : Word) :
    (s.setPair pr h l).regs = (s.regs.set (pairHigh pr) h).set (pairLow pr) l := rfl

@[simp] theorem State.setPair_level (s : State) (pr : Pair) (h l : Word) : (s.setPair pr h l).level = s.level := rfl

@[simp] theorem State.setPair_waiting (s : State) (pr : Pair) (h l : Word) : (s.setPair pr h l).waiting = s.waiting := rfl

@[simp] theorem State.setPair_pending (s : State) (pr : Pair) (h l : Word) : (s.setPair pr h l).pending = s.pending := rfl

@[simp] theorem State.setPair_links (s : State) (pr : Pair) (h l : Word) : (s.setPair pr h l).links = s.links := rfl

@[simp] theorem State.setPair_faultMeta (s : State) (pr : Pair) (h l : Word) :
    (s.setPair pr h l).faultMeta = s.faultMeta := rfl

@[simp] theorem State.setPair_cause (s : State) (pr : Pair) (h l : Word) : (s.setPair pr h l).cause = s.cause := rfl

@[simp] theorem State.setPair_mem (s : State) (pr : Pair) (h l : Word) : (s.setPair pr h l).mem = s.mem := rfl

@[simp] theorem State.setPair_irqEvents (s : State) (pr : Pair) (h l : Word) :
    (s.setPair pr h l).irqEvents = s.irqEvents := rfl

@[simp] theorem State.setPair_busErrors (s : State) (pr : Pair) (h l : Word) :
    (s.setPair pr h l).busErrors = s.busErrors := rfl

@[simp] theorem State.setPair_params (s : State) (pr : Pair) (h l : Word) : (s.setPair pr h l).params = s.params := rfl

@[simp] theorem State.setPair_deviceWords (s : State) (pr : Pair) (h l : Word) :
    (s.setPair pr h l).deviceWords = s.deviceWords := rfl

@[simp] theorem State.setPair_deviceEvents (s : State) (pr : Pair) (h l : Word) :
    (s.setPair pr h l).deviceEvents = s.deviceEvents := rfl

@[simp] theorem State.setPair_deviceWrites (s : State) (pr : Pair) (h l : Word) :
    (s.setPair pr h l).deviceWrites = s.deviceWrites := rfl

@[simp] theorem State.setPair_freeCount (s : State) (pr : Pair) (h l : Word) :
    (s.setPair pr h l).freeCount = s.freeCount := rfl

end Sys2Proof.Machine
end

