-- ==== Sys2Proof/Laws/Exception.lean ====
section
/-! SUPPORT. What taking an exception can do, said once: `enterException` and `takeFault`, forwards (when it completes) and
backwards (what a completed entry leaves). -/

namespace Sys2Proof.Machine

/-- A readable vector reads as its target. -/
theorem State.readVector_of_readable {s : State} {v : BitVec 8} (h : s.vectorReadable v) :
    s.readVector v = some (s.vectorTarget v) := by
  obtain ⟨h0, h1⟩ := h
  simp only [State.readVector, State.vectorTarget, h0, h1, Bool.or_self, Bool.false_eq_true, if_false]

/-- A vector that reads, reads as its target. -/
theorem State.vectorTarget_of_readVector {s : State} {v : BitVec 8} {a : BitVec 32} (h : s.readVector v = some a) :
    a = s.vectorTarget v := by
  unfold State.readVector at h
  simp only at h
  split at h
  · cases h
  · exact (Option.some.inj h).symm

/-- Entering an exception completes when the vector can be read. -/
theorem enterException_completes {s : State} {v : BitVec 8} (l : Fin 8) (k : Fin 7) (ret : BitVec 32)
    (h : s.vectorReadable v) : ∃ t, enterException v l k ret s = .next t := by
  simp [enterException, State.readVector_of_readable h]

/-- The status register on entry, bit by bit. -/
theorem entrySr_getLsbD (v : Word) (i : Nat) :
    (entrySr v).getLsbD i = (v.getLsbD i && decide (i ≠ 8) && decide (i ≠ 15)) := by
  unfold entrySr
  rw [BitVec.getLsbD_and]
  have : ∀ j : Fin 16, (0x7EFF#16).getLsbD j.val = (decide (j.val ≠ 8) && decide (j.val ≠ 15)) := by decide
  rcases Nat.lt_or_ge i 16 with h | h
  · rw [this ⟨i, h⟩, Bool.and_assoc]
  · simp [BitVec.getLsbD_of_ge v i h]

/-- What a completed entry leaves. -/
theorem entered_of_enterException {s t : State} {v : BitVec 8} {l : Fin 8} {k : Fin 7} {ret : BitVec 32}
    (h : enterException v l k ret s = .next t) :
    Entered v l k ret s t ∧ t.pending = s.pending ∧ t.cause = s.cause ∧ t.faultMeta = s.faultMeta ∧ t.mem = s.mem ∧
      t.regs.sr = entrySr s.regs.sr := by
  unfold enterException at h
  split at h
  · cases h
  · rename_i target hv
    injection h with h
    subst h
    refine ⟨⟨?_, rfl, rfl, ?_, ?_, ?_, ?_, ?_, ?_, ⟨fun _ => rfl, rfl⟩, rfl, rfl, rfl, rfl, rfl, rfl⟩, rfl, rfl, rfl, rfl, ?_⟩
    · rw [State.setPc_pc]
      exact State.vectorTarget_of_readVector hv
    · simp
    · intro j hj
      simp only [State.setPc_links, State.setReg_links]
      exact Vector.getElem_set_ne _ _ (fun e => hj (Fin.ext e.symm))
    · exact (entrySr_getLsbD _ 8).trans (by simp)
    · exact (entrySr_getLsbD _ 15).trans (by simp)
    · intro i h8 h15
      simp only [State.setPc_regs, State.setReg_regs, RegFile.set_sr]
      simp [entrySr_getLsbD, h8, h15]
    · intro r hr
      simp only [List.mem_cons, List.not_mem_nil, or_false, not_or] at hr
      simp [RegFile.get_set, hr]
    · simp [RegFile.set_sr]

end Sys2Proof.Machine
end

