-- ==== Sys2Proof/Laws/Memory.lean ====
section
/-! SUPPORT. The laws of memory: what a byte and a word read as after a store, and that every memory operation keeps the
canonical form. -/

namespace Sys2Proof.Machine

/-- A store leaves every other byte alone. -/
theorem Memory.readByte_writeByte_ne (m : Memory) {a b : Nat} (v : Byte) (h : b ≠ a) :
    (m.writeByte a v).readByte b = m.readByte b := by
  induction m with
  | nil => simp only [Memory.writeByte]; split <;> simp [Memory.readByte, Ne.symm h]
  | cons c m ih =>
    obtain ⟨k, w⟩ := c
    simp only [Memory.writeByte]
    split
    · split <;> simp [Memory.readByte, Ne.symm h]
    · split
      · subst_vars
        split <;> simp [Memory.readByte, Ne.symm h]
      · simp [Memory.readByte, ih]

/-- Below the first address of a memory in canonical form everything reads as zero. -/
theorem Memory.readByte_below {m : Memory} {lo b : Nat} (h : Memory.wfFrom lo m = true) (hb : b < lo) :
    m.readByte b = 0 := by
  induction m generalizing lo with
  | nil => rfl
  | cons c m ih =>
    obtain ⟨k, w⟩ := c
    simp only [Memory.wfFrom, Bool.and_eq_true, decide_eq_true_eq] at h
    have : k ≠ b := by omega
    simp only [Memory.readByte, this, if_false]
    exact ih h.2 (by omega)

/-- A store is read back. -/
theorem Memory.readByte_writeByte_self {m : Memory} {lo : Nat} (a : Nat) (v : Byte) (h : Memory.wfFrom lo m = true) :
    (m.writeByte a v).readByte a = v := by
  induction m generalizing lo with
  | nil => simp only [Memory.writeByte]; split <;> simp_all [Memory.readByte]
  | cons c m ih =>
    obtain ⟨k, w⟩ := c
    simp only [Memory.wfFrom, Bool.and_eq_true, decide_eq_true_eq] at h
    simp only [Memory.writeByte]
    split
    · rename_i hlt
      split
      · subst_vars
        have : k ≠ a := by omega
        simp only [Memory.readByte, this, if_false]
        exact Memory.readByte_below h.2 (by omega)
      · simp [Memory.readByte]
    · split
      · subst_vars
        split
        · subst_vars
          exact Memory.readByte_below h.2 (by omega)
        · simp [Memory.readByte]
      · rename_i h1 h2
        have : k ≠ a := fun e => h2 e.symm
        simp only [Memory.readByte, this, if_false]
        exact ih h.2

/-- The canonical form from a lower start. -/
theorem Memory.wfFrom_mono {m : Memory} {lo hi : Nat} (h : Memory.wfFrom hi m = true) (hle : lo ≤ hi) :
    Memory.wfFrom lo m = true := by
  cases m with
  | nil => rfl
  | cons c m =>
    obtain ⟨k, w⟩ := c
    simp only [Memory.wfFrom, Bool.and_eq_true, decide_eq_true_eq] at h ⊢
    exact ⟨⟨⟨by omega, h.1.1.2⟩, h.1.2⟩, h.2⟩

/-- A store keeps the canonical form. -/
theorem Memory.wfFrom_writeByte {m : Memory} {lo a : Nat} (v : Byte) (h : Memory.wfFrom lo m = true) (hlo : lo ≤ a)
    (ha : a < 2 ^ 25) : Memory.wfFrom lo (m.writeByte a v) = true := by
  induction m generalizing lo with
  | nil => by_cases hv : v = 0 <;> simp_all [Memory.writeByte, Memory.wfFrom]
  | cons c m ih =>
    obtain ⟨k, w⟩ := c
    simp only [Memory.wfFrom, Bool.and_eq_true, decide_eq_true_eq] at h
    simp only [Memory.writeByte]
    split
    · split
      · simp only [Memory.wfFrom, Bool.and_eq_true, decide_eq_true_eq]
        exact h
      · simp only [Memory.wfFrom, Bool.and_eq_true, decide_eq_true_eq]
        exact ⟨⟨⟨hlo, ha⟩, by assumption⟩, ⟨⟨⟨by omega, h.1.1.2⟩, h.1.2⟩, h.2⟩⟩
    · split
      · subst_vars
        split
        · exact Memory.wfFrom_mono h.2 (by omega)
        · simp only [Memory.wfFrom, Bool.and_eq_true, decide_eq_true_eq]
          exact ⟨⟨⟨hlo, ha⟩, by assumption⟩, h.2⟩
      · simp only [Memory.wfFrom, Bool.and_eq_true, decide_eq_true_eq]
        exact ⟨⟨⟨h.1.1.1, h.1.1.2⟩, h.1.2⟩, ih h.2 (by omega)⟩

/-- Storing a byte of the space keeps the canonical form. -/
theorem Memory.wf_writeByte {m : Memory} {a : Nat} (v : Byte) (h : m.wf = true) (ha : a < 2 ^ 25) :
    (m.writeByte a v).wf = true := Memory.wfFrom_writeByte v h (Nat.zero_le _) ha

/-- Storing a word keeps the canonical form. -/
theorem Memory.wf_writeWord {m : Memory} (a : Addr) (v : Word) (h : m.wf = true) : (m.writeWord a v).wf = true := by
  have := a.isLt
  exact Memory.wf_writeByte _ (Memory.wf_writeByte _ h (by omega)) (by omega)

/-- A store of a word leaves every byte outside it alone. -/
theorem Memory.readByte_writeWord_outside (m : Memory) (a : Addr) (v : Word) {b : Nat} (h0 : b ≠ 2 * a.toNat)
    (h1 : b ≠ 2 * a.toNat + 1) : (m.writeWord a v).readByte b = m.readByte b := by
  simp [Memory.writeWord, Memory.readByte_writeByte_ne _ _ h0, Memory.readByte_writeByte_ne _ _ h1]

/-- A stored word is read back. -/
theorem Memory.readWord_writeWord_self {m : Memory} (a : Addr) (v : Word) (h : m.wf = true) :
    (m.writeWord a v).readWord a = v := by
  have hlt := a.isLt
  have h1 : (m.writeByte (2 * a.toNat) (v.extractLsb' 8 8)).wf = true := Memory.wf_writeByte _ h (by omega)
  unfold Memory.readWord Memory.writeWord
  rw [Memory.readByte_writeByte_self _ _ h1, Memory.readByte_writeByte_ne _ _ (by omega),
    Memory.readByte_writeByte_self _ _ h]
  ext i hi
  simp
  grind

/-- A store of a word leaves every other word alone. -/
theorem Memory.readWord_writeWord_ne (m : Memory) {a b : Addr} (v : Word) (h : b ≠ a) :
    (m.writeWord a v).readWord b = m.readWord b := by
  have hne : b.toNat ≠ a.toNat := fun e => h (BitVec.eq_of_toNat_eq e)
  unfold Memory.readWord
  rw [Memory.readByte_writeWord_outside _ _ _ (by omega) (by omega),
    Memory.readByte_writeWord_outside _ _ _ (by omega) (by omega)]

end Sys2Proof.Machine
end

