-- ==== Sys2Proof/Laws/Operations.lean ====
section
/-! SUPPORT. For each shared operation, once, everything it can do: if it answers a next state, then which check passed and
which state that is. No proof need unfold the operation. -/

namespace Sys2Proof.Machine

/-! ### Conditions and checks -/

/-- When the condition holds the instruction runs. -/
theorem conditional_of_holds {c : Cond} {s : State} {k : Result} (h : condHolds c s.flags = true) :
    conditional c s k = k := if_pos h

/-- When it does not, only the program counter moves. -/
theorem conditional_of_fails {c : Cond} {s : State} {k : Result} (h : condHolds c s.flags = false) :
    conditional c s k = .next s.advance := if_neg (by rw [h]; exact Bool.false_ne_true)

/-- Shift fields of zero pass the check of the control instructions. -/
theorem unshifted_of_zero {sh : Shift} {k : Result} (h : sh = { type := .nul, amount := .literal 0 }) :
    unshifted sh k = k := by subst h; rfl

/-- Any other shift fields stop there. -/
theorem unshifted_of_nonzero {sh : Shift} {k : Result} (h : sh ≠ { type := .nul, amount := .literal 0 }) :
    unshifted sh k = .refused .shiftFieldsNotZero := by
  unfold unshifted noShiftFields
  rw [if_neg]
  simpa using h

/-- A shift type that is not reserved passes the check. -/
theorem withShiftType_of_ne {sh : Shift} {k : Result} (h : sh.type ≠ .reserved) : withShiftType sh k = k := if_neg h

/-- The reserved one stops there. -/
theorem withShiftType_of_reserved {sh : Shift} {k : Result} (h : sh.type = .reserved) :
    withShiftType sh k = .refused .reservedShiftType := if_pos h

/-- What completes has passed the check. -/
theorem withShiftType_cases {sh : Shift} {k : Result} {t : State} (h : withShiftType sh k = .next t) :
    sh.type ≠ .reserved ∧ k = .next t := by
  unfold withShiftType at h
  split at h
  · cases h
  · rename_i hs
    exact ⟨hs, h⟩

/-- In supervisor mode no destination is forbidden. -/
theorem State.writeForbidden_of_supervisor {s : State} {r : Reg} (h : s.protectedMode = false) :
    s.writeForbidden r = false := by simp [State.writeForbidden, h]

/-- In protected mode the high registers are. -/
theorem State.writeForbidden_of_protected {s : State} {r : Reg} (h : s.protectedMode = true) :
    s.writeForbidden r = isHighReg r := by simp [State.writeForbidden, h]

/-- Whether an offset traps does not depend on the advance of the program counter. -/
@[simp] theorem State.advance_offsetTraps (s : State) (lo off : Word) :
    s.advance.offsetTraps lo off = s.offsetTraps lo off := by simp [State.offsetTraps]

/-- Where the platform answers with a bus error neither. -/
@[simp] theorem State.advance_busError (s : State) (a : Addr) (k : AccessKind) :
    s.advance.busError a k = s.busError a k := rfl

/-- The status word with bit 13 dropped, bit by bit. -/
theorem dropEA_bit (v : Word) (i : Nat) : (dropEA v).getLsbD i = (v.getLsbD i && decide (i ≠ 13)) := by
  unfold dropEA
  rw [BitVec.getLsbD_and]
  have : ∀ j : Fin 16, (0xDFFF#16).getLsbD j.val = decide (j.val ≠ 13) := by decide
  rcases Nat.lt_or_ge i 16 with h | h
  · rw [this ⟨i, h⟩]
  · simp [BitVec.getLsbD_of_ge v i h]

/-! ### ALU -/

/-- The end of the ALU template. -/
theorem aluFinish_cases {op : AluOp} {save : Bool} {sel : StatusSel} {dest : Reg} {a b : Word} {shf : Flags} {s t : State}
    (h : aluFinish op save sel dest a b shf s = .next t) :
    (save = true ∧ s.writeForbidden dest = true ∧ raiseFault .privilegeViolation 2 0 s = .next t) ∨
    (save = true ∧ s.writeForbidden dest = false ∧
      t = flagUpdate sel (aluOp op a b s.flags.c).2 shf (s.advance.writeReg dest (aluOp op a b s.flags.c).1)) ∨
    (save = false ∧ t = flagUpdate sel (aluOp op a b s.flags.c).2 shf s.advance) := by
  unfold aluFinish at h
  cases save <;> cases hw : s.writeForbidden dest <;> simp_all

/-- A shifting ALU instruction: its fields are in order, and it ends as the template does. -/
theorem aluShifted_cases {op : AluOp} {save : Bool} {sel : StatusSel} {sh : Shift} {dest src : Reg} {b : Word} {s t : State}
    (h : aluShifted op save sel sh dest src b s = .next t) :
    sel ≠ .reserved ∧ sh.type ≠ .reserved ∧
      ∃ o, o = s.advance.shifted sh (s.advance.readReg src) ∧
        aluFinish op save sel dest o.value b (s.shiftFlags sh.type o) s = .next t := by
  unfold aluShifted at h
  split at h
  · cases h
  · rename_i hs
    split at h
    · cases h
    · rename_i ht
      exact ⟨hs, ht, _, rfl, h⟩

/-- LOAD of a value. -/
theorem loadValue_cases {dest : Reg} {v : Word} {s t : State} (h : loadValue dest v s = .next t) :
    (s.writeForbidden dest = true ∧ raiseFault .privilegeViolation 2 0 s = .next t) ∨
    (s.writeForbidden dest = false ∧ t = s.advance.writeReg dest v) := by
  unfold loadValue at h
  cases hw : s.writeForbidden dest <;> simp_all

/-- An undocumented opcode whose results are not stated. -/
theorem undocumentedEffect_cases {sel : StatusSel} {s t : State} (h : undocumentedEffect sel s = .next t) :
    sel ≠ .reserved ∧ (t = s.advance ∨ ∃ f, t = s.advance.setFlags f) := by
  unfold undocumentedEffect at h
  split at h
  · cases h
  · rename_i hs
    refine ⟨hs, ?_⟩
    split at h
    · injection h with h
      exact .inl h.symm
    · injection h with h
      exact .inr ⟨_, h.symm⟩

/-- An undocumented opcode of the Immediate format: the test variant, or its effect with results not stated. -/
theorem undocumentedImm_cases {op : AluOp} {f : ImmAlu} {s : State} :
    (s.params.undocOps = .test ∧ undocumentedImm op f s = aluImm op false f s) ∨
    (s.params.undocOps = .refuse ∧ undocumentedImm op f s = conditional f.cond s (undocumentedEffect f.sel s)) := by
  unfold undocumentedImm
  cases s.params.undocOps <;> simp

/-- The same of the Short Immediate format. -/
theorem undocumentedShort_cases {op : AluOp} {f : ShortAlu} {s : State} :
    (s.params.undocOps = .test ∧ undocumentedShort op f s = aluShort op false f s) ∨
    (s.params.undocOps = .refuse ∧
      undocumentedShort op f s = conditional f.cond s (withShiftType f.shift (undocumentedEffect f.sel s))) := by
  unfold undocumentedShort
  cases s.params.undocOps <;> simp

/-- The same of the Register format. -/
theorem undocumentedReg_cases {op : AluOp} {f : RegAlu} {s : State} :
    (s.params.undocOps = .test ∧ undocumentedReg op f s = aluReg op false f s) ∨
    (s.params.undocOps = .refuse ∧
      undocumentedReg op f s = conditional f.cond s (withShiftType f.shift (undocumentedEffect f.sel s))) := by
  unfold undocumentedReg
  cases s.params.undocOps <;> simp

/-! ### Memory -/

/-- STOR. -/
theorem storeWord_cases {pr : Pair} {off data : Word} {s t : State} (h : storeWord pr off data s = .next t) :
    raiseFault .segmentOverflow 3 0 s = .next t ∨
    raiseFault .bus 4 (s.advance.effectiveAddr pr off) s = .next t ∨
    t = s.advance.writeWord (s.advance.effectiveAddr pr off) data := by
  unfold storeWord at h
  simp only at h
  split at h
  · exact .inl h
  · split at h
    · exact .inr (.inl h)
    · injection h with h
      exact .inr (.inr h.symm)

/-- STOR with pre-decrement. -/
theorem storePreDec_cases {pr : Pair} {off data : Word} {s t : State} (h : storePreDec pr off data s = .next t) :
    raiseFault .segmentOverflow 3 0 s = .next t ∨
    raiseFault .bus 4 (s.advance.preDecAddr pr off) s = .next t ∨
    t = (s.advance.writeWord (s.advance.preDecAddr pr off) data).setReg (pairLow pr)
      (s.advance.regs.get (pairLow pr) - 1) := by
  unfold storePreDec at h
  simp only at h
  split at h
  · exact .inl h
  · split at h
    · exact .inr (.inl h)
    · injection h with h
      exact .inr (.inr h.symm)

/-- LOAD. -/
theorem loadWord_cases {dest : Reg} {pr : Pair} {off : Word} {g : Word → Word} {s t : State}
    (h : loadWord dest pr off g s = .next t) :
    raiseFault .privilegeViolation 2 0 s = .next t ∨ raiseFault .segmentOverflow 3 0 s = .next t ∨
    raiseFault .bus 4 (s.advance.effectiveAddr pr off) s = .next t ∨
    (s.writeForbidden dest = false ∧
      t = s.advance.writeReg dest (g (s.readWord (s.advance.effectiveAddr pr off)))) := by
  unfold loadWord at h
  simp only at h
  split at h
  · exact .inl h
  · rename_i hw
    split at h
    · exact .inr (.inl h)
    · split at h
      · exact .inr (.inr (.inl h))
      · injection h with h
        exact .inr (.inr (.inr ⟨by simpa using hw, h.symm⟩))

/-- LOAD with post-increment. -/
theorem loadPostInc_cases {dest : Reg} {pr : Pair} {off : Word} {g : Word → Word} {s t : State}
    (h : loadPostInc dest pr off g s = .next t) :
    raiseFault .privilegeViolation 2 0 s = .next t ∨ raiseFault .segmentOverflow 3 0 s = .next t ∨
    raiseFault .bus 4 (s.advance.effectiveAddr pr off) s = .next t ∨
    (s.writeForbidden dest = false ∧ ∃ lo,
      t = (s.advance.writeReg dest (g (s.readWord (s.advance.effectiveAddr pr off)))).setReg (pairLow pr) lo ∧
      (dest ≠ pairLow pr → lo = s.advance.regs.get (pairLow pr) + 1)) := by
  unfold loadPostInc at h
  simp only at h
  split at h
  · exact .inl h
  · rename_i hw
    split at h
    · exact .inr (.inl h)
    · split at h
      · exact .inr (.inr (.inl h))
      · injection h with h
        exact .inr (.inr (.inr ⟨by simpa using hw, _, h.symm, fun hd => if_neg hd⟩))

/-! ### Control flow -/

/-- The address arithmetic of the control instructions. -/
theorem withOffset_cases {pr : Pair} {off : Word} {s t : State} {k : State → Result}
    (h : withOffset pr off s k = .next t) :
    raiseFault .segmentOverflow 3 0 s = .next t ∨ k s.advance = .next t := by
  unfold withOffset at h
  split at h
  · exact .inl h
  · exact .inr h

/-- LDEA into a pair. -/
theorem ldeaInto_cases {dst src : Pair} {off : Word} {s t : State} (h : ldeaInto dst src off s = .next t) :
    raiseFault .privilegeViolation 2 0 s = .next t ∨ raiseFault .segmentOverflow 3 0 s = .next t ∨
    (s.protectedMode = false ∧
      t = s.advance.setPair dst (s.advance.regs.get (pairHigh src)) (s.advance.offsetLow src off)) := by
  unfold ldeaInto at h
  split at h
  · exact .inl h
  · rename_i hp
    rcases withOffset_cases h with h | h
    · exact .inr (.inl h)
    · injection h with h
      exact .inr (.inr ⟨by simpa using hp, h.symm⟩)

/-- BRAN. -/
theorem branch_cases {pr : Pair} {off : Word} {s t : State} (h : branch pr off s = .next t) :
    raiseFault .segmentOverflow 3 0 s = .next t ∨ t = s.advance.setReg .pl (s.advance.offsetLow .p off) := by
  unfold branch at h
  split at h
  · rcases withOffset_cases h with h | h
    · exact .inl h
    · injection h with h
      exact .inr h.symm
  · cases h

/-- LJSR. -/
theorem jumpSubroutine_cases {src : Pair} {off : Word} {s t : State} (h : jumpSubroutine src off s = .next t) :
    raiseFault .privilegeViolation 2 0 s = .next t ∨ raiseFault .segmentOverflow 3 0 s = .next t ∨
    (s.protectedMode = false ∧
      t = (s.advance.setPair .l s.advance.regs.ph s.advance.regs.pl).setPair .p (s.advance.regs.get (pairHigh src))
        (s.advance.offsetLow src off)) := by
  unfold jumpSubroutine at h
  split at h
  · exact .inl h
  · rename_i hp
    rcases withOffset_cases h with h | h
    · exact .inr (.inl h)
    · injection h with h
      exact .inr (.inr ⟨by simpa using hp, h.symm⟩)

/-- BRSR. -/
theorem branchSubroutine_cases {pr : Pair} {off : Word} {s t : State} (h : branchSubroutine pr off s = .next t) :
    raiseFault .segmentOverflow 3 0 s = .next t ∨
    (s.protectedMode = false ∧
      t = (s.advance.setPair .l s.advance.regs.ph s.advance.regs.pl).setReg .pl (s.advance.offsetLow .p off)) := by
  unfold branchSubroutine at h
  split at h
  · cases h
  · split at h
    · cases h
    · rename_i hp
      rcases withOffset_cases h with h | h
      · exact .inl h
      · injection h with h
        exact .inr ⟨by simpa using hp, h.symm⟩

/-! ### The exception unit -/

/-- The parts of a call word made of an operation code and a parameter byte. -/
theorem callWord_fields (code par : BitVec 8) :
    (code ++ par : Word).extractLsb' 12 4 = code.extractLsb' 4 4 ∧
    (code ++ par : Word).extractLsb' 8 4 = code.extractLsb' 0 4 ∧ (code ++ par : Word).extractLsb' 0 8 = par := by
  refine ⟨?_, ?_, ?_⟩ <;> apply BitVec.eq_of_getLsbD_eq <;> intro i hi <;>
    simp only [BitVec.getLsbD_extractLsb', BitVec.getLsbD_append]
  · rw [if_neg (by omega), decide_eq_true hi, Bool.true_and, Bool.true_and]
    congr 1; omega
  · rw [if_neg (by omega), decide_eq_true hi, Bool.true_and, Bool.true_and]
    congr 1; omega
  · rw [if_pos (by omega), decide_eq_true hi, Bool.true_and, Nat.zero_add]

/-- Taking a fault: the Double Fault, or the entry of the fault with its metadata recorded. -/
theorem takeFault_cases {f : FaultKind} {phase : BitVec 3} {bus : Addr} {ret : BitVec 32} {s t : State}
    (h : takeFault f phase bus ret s = .next t) :
    (s.level = 7 ∧ doubleFault phase bus ret s = .next t) ∨
    (s.level ≠ 7 ∧ enterException (vectorOf f) 7 6 ret
      { s with
        faultMeta := { addr := bus.zeroExtend 32, sr := faultWord (s.faultCode f) phase }
        cause := faultCause (vectorOf f) } = .next t) := by
  unfold takeFault at h
  split at h
  · rename_i hl
    exact .inl ⟨hl, h⟩
  · rename_i hl
    exact .inr ⟨hl, h⟩

/-- A return from an exception. -/
theorem returnFromException_cases {s t : State} (h : returnFromException s = .next t) :
    s.level ≠ 0 ∧
      t = ({ s with level := s.links[linkOfLevel s.level].level }.setReg .sr
        (dropEA s.links[linkOfLevel s.level].sr)).setPc s.links[linkOfLevel s.level].addr := by
  unfold returnFromException at h
  split at h
  · cases h
  · rename_i hl
    injection h with h
    exact ⟨hl, h.symm⟩

/-- A trap. -/
theorem callExcp_cases {v : BitVec 8} {s u t : State} (h : callExcp v s u = .next t) :
    raiseFault .privilegeViolation 2 0 s = .next t ∨
    (s.level = 0 ∧ enterException v 1 0 u.pc u = .next t) := by
  unfold callExcp at h
  split at h
  · exact .inl h
  · split at h
    · cases h
    · split at h
      · cases h
      · rename_i hl
        exact .inr ⟨Decidable.byContradiction hl, h⟩

/-- A software reset. -/
theorem callRset_cases {u t : State} (h : callRset u = .next t) :
    ∃ target, u.readVector 0x00#8 = some target ∧
      t = ({ u with level := 0, waiting := false, pending := Pending.none }.setReg .sr 0).setPc target := by
  unfold callRset at h
  split at h
  · cases h
  · rename_i target hv
    injection h with h
    exact ⟨target, hv, h.symm⟩

/-- A transfer out of a link register. -/
theorem callEtfr_cases {par : BitVec 8} {u t : State} (h : callEtfr par u = .next t) :
    ∃ addr sr v, u.linkAddr (linkIndex par) = some addr ∧ u.linkSr (linkIndex par) = some sr ∧
      v = (if par.getLsbD 4 then (u.setReg .ah (addr.extractLsb' 16 16)).setReg .al (addr.extractLsb' 0 16) else u) ∧
      t = if par.getLsbD 5 then v.setReg .r7 sr else v := by
  unfold callEtfr at h
  split at h
  · rename_i addr sr ha hs
    injection h with h
    exact ⟨addr, sr, _, ha, hs, rfl, h.symm⟩
  · cases h

/-- A transfer into a link register. -/
theorem callEttr_cases {par : BitVec 8} {u t : State} (h : callEttr par u = .next t) :
    linkIndex par < 8#4 ∧ ∃ v,
      v = (if par.getLsbD 4 then u.setLinkAddr (linkIndex par) (u.regs.ah ++ u.regs.al) else u) ∧
      t = if par.getLsbD 5 then v.setLinkSr (linkIndex par) u.regs.r7 else v := by
  unfold callEttr at h
  split at h
  · rename_i hk
    injection h with h
    exact ⟨hk, _, rfl, h.symm⟩
  · cases h

/-- A coprocessor call: one of the two faults, or one operation of the exception unit on the state after fetch with the call
word in the cause register. -/
theorem copCall_cases {w : Word} {s t : State} (h : copCall w s = .next t) :
    raiseFault .invalidOpcode 2 0 s = .next t ∨ raiseFault .privilegeViolation 2 0 s = .next t ∨
    callExcp (w.extractLsb' 0 8) s { s.advance with cause := w } = .next t ∨
    (s.protectedMode = false ∧
      (callWait { s.advance with cause := w } = .next t ∨ returnFromException { s.advance with cause := w } = .next t ∨
        callRset { s.advance with cause := w } = .next t ∨
        callEtfr (w.extractLsb' 0 8) { s.advance with cause := w } = .next t ∨
        callEttr (w.extractLsb' 0 8) { s.advance with cause := w } = .next t)) := by
  unfold copCall at h
  simp only at h
  split at h
  · cases h
  · split at h
    · exact .inl h
    · split at h
      · exact .inr (.inl h)
      · rename_i hp
        split at h
        · cases h
        have key : ∀ o : BitVec 4, 8 ≤ o.toNat → o.getLsbD 3 = true := by decide
        have sup : ∀ n, 8 ≤ n → (w.extractLsb' 8 4).toNat = n → s.protectedMode = false := by
          intro n hn e
          have := key (w.extractLsb' 8 4) (e ▸ hn)
          rw [this, Bool.true_and] at hp
          exact Bool.eq_false_iff.mpr hp
        split at h
        · exact .inr (.inr (.inl h))
        · rename_i e; exact .inr (.inr (.inr ⟨sup _ (by decide) e, .inl h⟩))
        · rename_i e; exact .inr (.inr (.inr ⟨sup _ (by decide) e, .inr (.inl h)⟩))
        · rename_i e; exact .inr (.inr (.inr ⟨sup _ (by decide) e, .inr (.inr (.inl h))⟩))
        · rename_i e; exact .inr (.inr (.inr ⟨sup _ (by decide) e, .inr (.inr (.inr (.inl h)))⟩))
        · rename_i e; exact .inr (.inr (.inr ⟨sup _ (by decide) e, .inr (.inr (.inr (.inr h)))⟩))
        · exact .inl h

/-! ### The step -/

/-- Latching the events of a boundary changes the latches and the list of events only. -/
theorem State.latchEvents_shape (s : State) : ∃ p e, s.latchEvents = { s with pending := p, irqEvents := e } := by
  have fold : ∀ (now : List IrqLine) (u : State), ∃ p, now.foldl State.latchEvent u = { u with pending := p } := by
    intro now
    induction now with
    | nil => intro u; exact ⟨u.pending, rfl⟩
    | cons k l ih =>
      intro u
      obtain ⟨p, hp⟩ := ih (u.latchEvent k)
      refine ⟨p, ?_⟩
      rw [List.foldl_cons, hp]
      unfold State.latchEvent
      split <;> rfl
  unfold State.latchEvents
  split
  · exact ⟨s.pending, s.irqEvents, rfl⟩
  · rename_i now later _
    obtain ⟨p, hp⟩ := fold now { s with irqEvents := later }
    exact ⟨p, later, hp⟩

/-- Taking the devices' words changes those inputs only. -/
theorem State.takeDeviceWords_shape (s : State) :
    ∃ w e, s.takeDeviceWords = { s with deviceWords := w, deviceEvents := e } := by
  unfold State.takeDeviceWords
  split
  · exact ⟨s.deviceWords, s.deviceEvents, rfl⟩
  · rename_i now later _
    exact ⟨now, later, rfl⟩

/-- A boundary changes the latches and the platform's inputs only. -/
theorem State.atBoundary_shape (s : State) : ∃ p e w d,
    s.atBoundary = { s with pending := p, irqEvents := e, deviceWords := w, deviceEvents := d } := by
  obtain ⟨w, d, h⟩ := s.takeDeviceWords_shape
  obtain ⟨p, e, h'⟩ := s.takeDeviceWords.latchEvents_shape
  refine ⟨p, e, w, d, ?_⟩
  rw [State.atBoundary, h', h]

/-- At a boundary to which the platform brings nothing the state is as before. -/
theorem State.atBoundary_of_none {s : State} (hi : s.irqEvents = []) (hd : s.deviceEvents = []) : s.atBoundary = s := by
  simp only [State.atBoundary, State.takeDeviceWords, hd, State.latchEvents, hi]

/-- The service point enters the conflict fault or the handler of an eligible line, or nothing. -/
theorem serviceInterrupt_cases {s : State} {r : Result} (h : serviceInterrupt s = some r) :
    (s.levelFiveConflict = true ∧
      r = takeFault .levelFiveConflict 0 0 s.pc { s with pending := s.pending.set .line1 false }) ∨
    ∃ k, s.eligible k = true ∧ r = enterInterrupt k s := by
  unfold serviceInterrupt at h
  split at h
  · rename_i hc
    injection h with h
    exact .inl ⟨hc, h.symm⟩
  · obtain ⟨k, hk, rfl⟩ := Option.map_eq_some_iff.mp h
    exact .inr ⟨k, List.find?_some hk, rfl⟩

/-- After an instruction: its own outcome, or the trace fault on the state it left. -/
theorem traceAfter_cases {traced : Bool} {r : Result} {t : State} (h : traceAfter traced r = .next t) :
    r = .next t ∨ ∃ u, r = .next u ∧ takeFault .trace 5 0 u.pc u = .next t := by
  unfold traceAfter at h
  split at h
  · rename_i u
    split at h
    · exact .inr ⟨u, rfl, h⟩
    · exact .inl h
  · cases h
  · cases h

/-- A step with a next state is an entry at the service point, a wait, a fault of the fetch, or an instruction. -/
theorem step_cases {s t : State} (h : step s = .next t) :
    serviceInterrupt s.atBoundary = some (.next t) ∨
    (s.atBoundary.waiting = true ∧ t = s.atBoundary) ∨
    (∃ f phase bus, s.atBoundary.beginInstr.fetchFault = some (f, phase, bus) ∧
      raiseFault f phase bus s.atBoundary.beginInstr = .next t) ∨
    traceAfter s.atBoundary.traceMode (exec (decodeWord s.atBoundary.fetchWord) s.atBoundary.beginInstr) = .next t := by
  unfold step cycle at h
  simp only at h
  split at h
  · rename_i r hr
    exact .inl (by rw [hr, h])
  · split at h
    · rename_i hw
      injection h with h
      exact .inr (.inl ⟨hw, h.symm⟩)
    · unfold runInstruction at h
      split at h
      · rename_i f phase bus hf
        exact .inr (.inr (.inl ⟨f, phase, bus, hf, h⟩))
      · exact .inr (.inr (.inr h))

end Sys2Proof.Machine
end

