-- ==== Sys2Proof/Laws/PerInstr.lean ====
section
/-! SUPPORT. A family of facts per instruction: the opcode in bits 31 to 26 of its word is the one 30_encoding.md R113 gives
it. -/

namespace Sys2Proof.Laws

/-- The opcode of an instruction (30_encoding.md R113). -/
def opcodeOf : Instr → BitVec 6
  | .addi _ => 0x00#6
  | .adci _ => 0x01#6
  | .subi _ => 0x02#6
  | .sbci _ => 0x03#6
  | .andi _ => 0x04#6
  | .orri _ => 0x05#6
  | .xori _ => 0x06#6
  | .loadImm _ => 0x07#6
  | .undoc08 _ => 0x08#6
  | .undoc09 _ => 0x09#6
  | .cmpi _ => 0x0A#6
  | .undoc0B _ => 0x0B#6
  | .tsai _ => 0x0C#6
  | .undoc0D _ => 0x0D#6
  | .tsxi _ => 0x0E#6
  | .copi _ => 0x0F#6
  | .storOff _ => 0x10#6
  | .storIdx _ => 0x11#6
  | .storPreOff _ => 0x12#6
  | .storPreIdx _ => 0x13#6
  | .loadOff _ => 0x14#6
  | .loadIdx _ => 0x15#6
  | .loadPostOff _ => 0x16#6
  | .loadPostIdx _ => 0x17#6
  | .ldeaOff _ => 0x18#6
  | .ldeaIdx _ => 0x19#6
  | .branOff _ => 0x1A#6
  | .branIdx _ => 0x1B#6
  | .ljsrOff _ => 0x1C#6
  | .ljsrIdx _ => 0x1D#6
  | .brsrOff _ => 0x1E#6
  | .brsrIdx _ => 0x1F#6
  | .addiShort _ => 0x20#6
  | .adciShort _ => 0x21#6
  | .subiShort _ => 0x22#6
  | .sbciShort _ => 0x23#6
  | .andiShort _ => 0x24#6
  | .orriShort _ => 0x25#6
  | .xoriShort _ => 0x26#6
  | .loadShort _ => 0x27#6
  | .undoc28 _ => 0x28#6
  | .undoc29 _ => 0x29#6
  | .cmpiShort _ => 0x2A#6
  | .undoc2B _ => 0x2B#6
  | .tsaiShort _ => 0x2C#6
  | .undoc2D _ => 0x2D#6
  | .tsxiShort _ => 0x2E#6
  | .copiShort _ => 0x2F#6
  | .addr _ => 0x30#6
  | .adcr _ => 0x31#6
  | .subr _ => 0x32#6
  | .sbcr _ => 0x33#6
  | .andr _ => 0x34#6
  | .orrr _ => 0x35#6
  | .xorr _ => 0x36#6
  | .loadReg _ => 0x37#6
  | .undoc38 _ => 0x38#6
  | .undoc39 _ => 0x39#6
  | .cmpr _ => 0x3A#6
  | .undoc3B _ => 0x3B#6
  | .tsar _ => 0x3C#6
  | .undoc3D _ => 0x3D#6
  | .tsxr _ => 0x3E#6
  | .copr _ => 0x3F#6
  | .excp _ => 0x0F#6
  | .wait _ => 0x0F#6
  | .rete _ => 0x0F#6
  | .rset _ => 0x0F#6
  | .etfr _ => 0x0F#6
  | .ettr _ => 0x0F#6
  | .noop => 0x00#6
  | .rets => 0x18#6
  | .ljmpOff _ => 0x18#6
  | .ljmpIdx _ => 0x19#6
  | .shft _ => 0x20#6
  | .shfi _ => 0x20#6
  | .shfr _ => 0x30#6

/-- The opcode field of an Immediate-format word. -/
theorem opcodeField_encImm (op : BitVec 6) (r : Reg) (imm : Word) (af : BitVec 2) (c : Cond) :
    opcodeField (encImm op r imm af c) = op := by
  unfold opcodeField encImm
  ext i hi
  simp
  grind

/-- The opcode field of a Short-Immediate-format word. -/
theorem opcodeField_encShort (op : BitVec 6) (r : Reg) (imm8 : BitVec 8) (sh : Shift) (af : BitVec 2) (c : Cond) :
    opcodeField (encShort op r imm8 sh af c) = op := by
  unfold opcodeField encShort
  ext i hi
  simp
  grind

/-- The opcode field of a Register-format word. -/
theorem opcodeField_encReg (op : BitVec 6) (rd ra rb : Reg) (sh : Shift) (af : BitVec 2) (c : Cond) :
    opcodeField (encReg op rd ra rb sh af c) = op := by
  unfold opcodeField encReg
  ext i hi
  simp
  grind

/-- The encoder puts the instruction's opcode into its word. -/
def OpcodeField.Statement (i : Instr) : Prop := opcodeField (encodeWord i) = opcodeOf i

theorem OpcodeField.addi (f : ImmAlu) : OpcodeField.Statement (.addi f) := opcodeField_encImm ..

theorem OpcodeField.adci (f : ImmAlu) : OpcodeField.Statement (.adci f) := opcodeField_encImm ..

theorem OpcodeField.subi (f : ImmAlu) : OpcodeField.Statement (.subi f) := opcodeField_encImm ..

theorem OpcodeField.sbci (f : ImmAlu) : OpcodeField.Statement (.sbci f) := opcodeField_encImm ..

theorem OpcodeField.andi (f : ImmAlu) : OpcodeField.Statement (.andi f) := opcodeField_encImm ..

theorem OpcodeField.orri (f : ImmAlu) : OpcodeField.Statement (.orri f) := opcodeField_encImm ..

theorem OpcodeField.xori (f : ImmAlu) : OpcodeField.Statement (.xori f) := opcodeField_encImm ..

theorem OpcodeField.loadImm (f : ImmAlu) : OpcodeField.Statement (.loadImm f) := opcodeField_encImm ..

theorem OpcodeField.undoc08 (f : ImmAlu) : OpcodeField.Statement (.undoc08 f) := opcodeField_encImm ..

theorem OpcodeField.undoc09 (f : ImmAlu) : OpcodeField.Statement (.undoc09 f) := opcodeField_encImm ..

theorem OpcodeField.cmpi (f : ImmAlu) : OpcodeField.Statement (.cmpi f) := opcodeField_encImm ..

theorem OpcodeField.undoc0B (f : ImmAlu) : OpcodeField.Statement (.undoc0B f) := opcodeField_encImm ..

theorem OpcodeField.tsai (f : ImmAlu) : OpcodeField.Statement (.tsai f) := opcodeField_encImm ..

theorem OpcodeField.undoc0D (f : ImmAlu) : OpcodeField.Statement (.undoc0D f) := opcodeField_encImm ..

theorem OpcodeField.tsxi (f : ImmAlu) : OpcodeField.Statement (.tsxi f) := opcodeField_encImm ..

theorem OpcodeField.copi (f : ImmAlu) : OpcodeField.Statement (.copi f) := opcodeField_encImm ..

theorem OpcodeField.storOff (f : ImmMem) : OpcodeField.Statement (.storOff f) := opcodeField_encImm ..

theorem OpcodeField.storIdx (f : RegMem) : OpcodeField.Statement (.storIdx f) := opcodeField_encReg ..

theorem OpcodeField.storPreOff (f : ImmMem) : OpcodeField.Statement (.storPreOff f) := opcodeField_encImm ..

theorem OpcodeField.storPreIdx (f : RegMem) : OpcodeField.Statement (.storPreIdx f) := opcodeField_encReg ..

theorem OpcodeField.loadOff (f : ImmMem) : OpcodeField.Statement (.loadOff f) := opcodeField_encImm ..

theorem OpcodeField.loadIdx (f : RegMem) : OpcodeField.Statement (.loadIdx f) := opcodeField_encReg ..

theorem OpcodeField.loadPostOff (f : ImmMem) : OpcodeField.Statement (.loadPostOff f) := opcodeField_encImm ..

theorem OpcodeField.loadPostIdx (f : RegMem) : OpcodeField.Statement (.loadPostIdx f) := opcodeField_encReg ..

theorem OpcodeField.ldeaOff (f : ImmMem) : OpcodeField.Statement (.ldeaOff f) := opcodeField_encImm ..

theorem OpcodeField.ldeaIdx (f : RegMem) : OpcodeField.Statement (.ldeaIdx f) := opcodeField_encReg ..

theorem OpcodeField.branOff (f : ImmMem) : OpcodeField.Statement (.branOff f) := opcodeField_encImm ..

theorem OpcodeField.branIdx (f : RegMem) : OpcodeField.Statement (.branIdx f) := opcodeField_encReg ..

theorem OpcodeField.ljsrOff (f : ImmMem) : OpcodeField.Statement (.ljsrOff f) := opcodeField_encImm ..

theorem OpcodeField.ljsrIdx (f : RegMem) : OpcodeField.Statement (.ljsrIdx f) := opcodeField_encReg ..

theorem OpcodeField.brsrOff (f : ImmMem) : OpcodeField.Statement (.brsrOff f) := opcodeField_encImm ..

theorem OpcodeField.brsrIdx (f : RegMem) : OpcodeField.Statement (.brsrIdx f) := opcodeField_encReg ..

theorem OpcodeField.addiShort (f : ShortAlu) : OpcodeField.Statement (.addiShort f) := opcodeField_encShort ..

theorem OpcodeField.adciShort (f : ShortAlu) : OpcodeField.Statement (.adciShort f) := opcodeField_encShort ..

theorem OpcodeField.subiShort (f : ShortAlu) : OpcodeField.Statement (.subiShort f) := opcodeField_encShort ..

theorem OpcodeField.sbciShort (f : ShortAlu) : OpcodeField.Statement (.sbciShort f) := opcodeField_encShort ..

theorem OpcodeField.andiShort (f : ShortAlu) : OpcodeField.Statement (.andiShort f) := opcodeField_encShort ..

theorem OpcodeField.orriShort (f : ShortAlu) : OpcodeField.Statement (.orriShort f) := opcodeField_encShort ..

theorem OpcodeField.xoriShort (f : ShortAlu) : OpcodeField.Statement (.xoriShort f) := opcodeField_encShort ..

theorem OpcodeField.loadShort (f : ShortAlu) : OpcodeField.Statement (.loadShort f) := opcodeField_encShort ..

theorem OpcodeField.undoc28 (f : ShortAlu) : OpcodeField.Statement (.undoc28 f) := opcodeField_encShort ..

theorem OpcodeField.undoc29 (f : ShortAlu) : OpcodeField.Statement (.undoc29 f) := opcodeField_encShort ..

theorem OpcodeField.cmpiShort (f : ShortAlu) : OpcodeField.Statement (.cmpiShort f) := opcodeField_encShort ..

theorem OpcodeField.undoc2B (f : ShortAlu) : OpcodeField.Statement (.undoc2B f) := opcodeField_encShort ..

theorem OpcodeField.tsaiShort (f : ShortAlu) : OpcodeField.Statement (.tsaiShort f) := opcodeField_encShort ..

theorem OpcodeField.undoc2D (f : ShortAlu) : OpcodeField.Statement (.undoc2D f) := opcodeField_encShort ..

theorem OpcodeField.tsxiShort (f : ShortAlu) : OpcodeField.Statement (.tsxiShort f) := opcodeField_encShort ..

theorem OpcodeField.copiShort (f : ShortAlu) : OpcodeField.Statement (.copiShort f) := opcodeField_encShort ..

theorem OpcodeField.addr (f : RegAlu) : OpcodeField.Statement (.addr f) := opcodeField_encReg ..

theorem OpcodeField.adcr (f : RegAlu) : OpcodeField.Statement (.adcr f) := opcodeField_encReg ..

theorem OpcodeField.subr (f : RegAlu) : OpcodeField.Statement (.subr f) := opcodeField_encReg ..

theorem OpcodeField.sbcr (f : RegAlu) : OpcodeField.Statement (.sbcr f) := opcodeField_encReg ..

theorem OpcodeField.andr (f : RegAlu) : OpcodeField.Statement (.andr f) := opcodeField_encReg ..

theorem OpcodeField.orrr (f : RegAlu) : OpcodeField.Statement (.orrr f) := opcodeField_encReg ..

theorem OpcodeField.xorr (f : RegAlu) : OpcodeField.Statement (.xorr f) := opcodeField_encReg ..

theorem OpcodeField.loadReg (f : RegAlu) : OpcodeField.Statement (.loadReg f) := opcodeField_encReg ..

theorem OpcodeField.undoc38 (f : RegAlu) : OpcodeField.Statement (.undoc38 f) := opcodeField_encReg ..

theorem OpcodeField.undoc39 (f : RegAlu) : OpcodeField.Statement (.undoc39 f) := opcodeField_encReg ..

theorem OpcodeField.cmpr (f : RegAlu) : OpcodeField.Statement (.cmpr f) := opcodeField_encReg ..

theorem OpcodeField.undoc3B (f : RegAlu) : OpcodeField.Statement (.undoc3B f) := opcodeField_encReg ..

theorem OpcodeField.tsar (f : RegAlu) : OpcodeField.Statement (.tsar f) := opcodeField_encReg ..

theorem OpcodeField.undoc3D (f : RegAlu) : OpcodeField.Statement (.undoc3D f) := opcodeField_encReg ..

theorem OpcodeField.tsxr (f : RegAlu) : OpcodeField.Statement (.tsxr f) := opcodeField_encReg ..

theorem OpcodeField.copr (f : RegAlu) : OpcodeField.Statement (.copr f) := opcodeField_encReg ..

theorem OpcodeField.excp (f : UnitCall) : OpcodeField.Statement (.excp f) := opcodeField_encImm ..

theorem OpcodeField.wait (f : UnitCall) : OpcodeField.Statement (.wait f) := opcodeField_encImm ..

theorem OpcodeField.rete (f : UnitCall) : OpcodeField.Statement (.rete f) := opcodeField_encImm ..

theorem OpcodeField.rset (f : UnitCall) : OpcodeField.Statement (.rset f) := opcodeField_encImm ..

theorem OpcodeField.etfr (f : UnitCall) : OpcodeField.Statement (.etfr f) := opcodeField_encImm ..

theorem OpcodeField.ettr (f : UnitCall) : OpcodeField.Statement (.ettr f) := opcodeField_encImm ..

theorem OpcodeField.noop : OpcodeField.Statement .noop := rfl

theorem OpcodeField.rets : OpcodeField.Statement .rets := rfl

theorem OpcodeField.ljmpOff (f : JumpOff) : OpcodeField.Statement (.ljmpOff f) := opcodeField_encImm ..

theorem OpcodeField.ljmpIdx (f : JumpIdx) : OpcodeField.Statement (.ljmpIdx f) := opcodeField_encReg ..

theorem OpcodeField.shft (f : ShiftOne) : OpcodeField.Statement (.shft f) := opcodeField_encShort ..

theorem OpcodeField.shfi (f : ShiftOne) : OpcodeField.Statement (.shfi f) := opcodeField_encShort ..

theorem OpcodeField.shfr (f : ShiftReg) : OpcodeField.Statement (.shfr f) := opcodeField_encReg ..

end Sys2Proof.Laws
end

