-- ==== Sys2Proof/Tests/Slice0.lean ====
section
/-! SUPPORT. The model's own tests: ill-formed terms refused, words written from the spec's layouts decoded, the step vectors
of 95_test_vectors.md (named by their tags), and for every statement of Obligations.lean with hypotheses a state and operands
that meet them. -/

open Sys2Proof Sys2Proof.Machine

namespace Sys2Proof.Tests

/-! ### Well-formedness: one ill-formed term for each check -/

/-- The word of NOOP is not written as ADDI (45_meta_instructions.md R320). -/
theorem test_illFormed_addi :
    wellFormed (.addi { reg := .sr, imm := 0, sel := .noUpdate, cond := .al }) = false := by decide

/-- A call of WAIT is not written as COPI (30_encoding.md R116). -/
theorem test_illFormed_copi :
    wellFormed (.copi { reg := .r1, imm := 0x1905, sel := .noUpdate, cond := .al }) = false := by decide

/-- LDEA into p with an immediate offset is LJMP or RETS (45_meta_instructions.md R321, R322). -/
theorem test_illFormed_ldeaOff :
    wellFormed (.ldeaOff { reg := .ph, imm := 4, pair := .a, cond := .eq }) = false := by decide

/-- LDEA into p with a register offset is LJMP (45_meta_instructions.md R322). -/
theorem test_illFormed_ldeaIdx :
    wellFormed (.ldeaIdx { r1 := .ph, r2 := .r1, r3 := .sr, shift := { type := .nul, amount := .literal 0 }
                           pair := .a, cond := .al }) = false := by decide

/-- LJMP l with no offset is RETS (45_meta_instructions.md R321). -/
theorem test_illFormed_ljmpOff :
    wellFormed (.ljmpOff { imm := 0, pair := .l, cond := .al }) = false := by decide

/-- ADDI[S] #0 with a shift is SHFT or SHFI (45_meta_instructions.md R330, R331). -/
theorem test_illFormed_addiShort :
    wellFormed (.addiShort { reg := .r1, imm8 := 0, shift := { type := .lsl, amount := .literal 3 }
                             sel := .fromShift, cond := .al }) = false := by decide

/-- ADDR[S] is SHFR (45_meta_instructions.md R332). -/
theorem test_illFormed_addr :
    wellFormed (.addr { r1 := .r1, r2 := .r2, r3 := .r3, shift := { type := .lsl, amount := .literal 3 }
                        sel := .fromShift, cond := .al }) = false := by decide

/-- SHFT has its count in a register (log 33). -/
theorem test_illFormed_shft :
    wellFormed (.shft { reg := .r1, shift := { type := .lsl, amount := .literal 3 }, cond := .al }) = false := by decide

/-- SHFI has a literal count (log 33). -/
theorem test_illFormed_shfi :
    wellFormed (.shfi { reg := .r1, shift := { type := .lsl, amount := .register .r2 }, cond := .al }) = false := by decide

/-- Every other spelling is accepted. -/
theorem test_wellFormed_neighbours :
    wellFormed (.addi { reg := .sr, imm := 1, sel := .noUpdate, cond := .al }) = true ∧
    wellFormed (.copi { reg := .r1, imm := 0x1205, sel := .noUpdate, cond := .al }) = true ∧
    wellFormed (.addiShort { reg := .r1, imm8 := 1, shift := { type := .lsl, amount := .literal 3 }, sel := .fromShift
                             cond := .al }) = true := by decide

/-! ### Decoding: a word for every constructor, written from the layouts of 30_encoding.md R103 to R105 -/

/-- Immediate format: Opcode 31:26, Reg 25:22, Imm16 21:6, AF 5:4, Cond 3:0 (R103). -/
def immWord (op reg imm af cond : Nat) : Nat := op * 2 ^ 26 + reg * 2 ^ 22 + imm * 2 ^ 6 + af * 2 ^ 4 + cond

/-- Short Immediate format: Opcode 31:26, Reg 25:22, Imm8 21:14, SO 13, ST 12:10, SA 9:6, AF 5:4, Cond 3:0 (R104). -/
def shortWord (op reg imm8 so st sa af cond : Nat) : Nat :=
  op * 2 ^ 26 + reg * 2 ^ 22 + imm8 * 2 ^ 14 + so * 2 ^ 13 + st * 2 ^ 10 + sa * 2 ^ 6 + af * 2 ^ 4 + cond

/-- Register format: Opcode 31:26, R1 25:22, R2 21:18, R3 17:14, SO 13, ST 12:10, SA 9:6, AF 5:4, Cond 3:0 (R105). -/
def regWord (op r1 r2 r3 so st sa af cond : Nat) : Nat :=
  op * 2 ^ 26 + r1 * 2 ^ 22 + r2 * 2 ^ 18 + r3 * 2 ^ 14 + so * 2 ^ 13 + st * 2 ^ 10 + sa * 2 ^ 6 + af * 2 ^ 4 + cond

/-- The opcodes 0x00 to 0x0F. -/
theorem test_decode_immediate :
    decodeTableWord 32 (immWord 0x00 1 0x369C 0 2) =
      some (.addi { reg := .r1, imm := 0x369C, sel := .noUpdate, cond := .ne }) ∧
    decodeTableWord 32 (immWord 0x01 4 0x48D0 1 7) =
      some (.adci { reg := .r4, imm := 0x48D0, sel := .fromAlu, cond := .os }) ∧
    decodeTableWord 32 (immWord 0x02 7 0x5B04 2 12) =
      some (.subi { reg := .r7, imm := 0x5B04, sel := .fromShift, cond := .lt }) ∧
    decodeTableWord 32 (immWord 0x03 10 0x6D38 3 1) =
      some (.sbci { reg := .ah, imm := 0x6D38, sel := .reserved, cond := .eq }) ∧
    decodeTableWord 32 (immWord 0x04 13 0x7F6C 0 6) =
      some (.andi { reg := .sl, imm := 0x7F6C, sel := .noUpdate, cond := .nc }) ∧
    decodeTableWord 32 (immWord 0x05 0 0x91A0 1 11) =
      some (.orri { reg := .sr, imm := 0x91A0, sel := .fromAlu, cond := .ge }) ∧
    decodeTableWord 32 (immWord 0x06 3 0xA3D4 2 0) =
      some (.xori { reg := .r3, imm := 0xA3D4, sel := .fromShift, cond := .al }) ∧
    decodeTableWord 32 (immWord 0x07 6 0xB608 3 5) =
      some (.loadImm { reg := .r6, imm := 0xB608, sel := .reserved, cond := .ns }) ∧
    decodeTableWord 32 (immWord 0x08 9 0xC83C 0 10) =
      some (.undoc08 { reg := .ll, imm := 0xC83C, sel := .noUpdate, cond := .lo }) ∧
    decodeTableWord 32 (immWord 0x09 12 0xDA70 1 15) =
      some (.undoc09 { reg := .sh, imm := 0xDA70, sel := .fromAlu, cond := .nv }) ∧
    decodeTableWord 32 (immWord 0x0A 15 0xECA4 2 4) =
      some (.cmpi { reg := .pl, imm := 0xECA4, sel := .fromShift, cond := .cc }) ∧
    decodeTableWord 32 (immWord 0x0B 2 0xFED8 3 9) =
      some (.undoc0B { reg := .r2, imm := 0xFED8, sel := .reserved, cond := .hi }) ∧
    decodeTableWord 32 (immWord 0x0C 5 0x110C 0 14) =
      some (.tsai { reg := .r5, imm := 0x110C, sel := .noUpdate, cond := .le }) ∧
    decodeTableWord 32 (immWord 0x0D 8 0x2340 1 3) =
      some (.undoc0D { reg := .lh, imm := 0x2340, sel := .fromAlu, cond := .cs }) ∧
    decodeTableWord 32 (immWord 0x0E 11 0x3574 2 8) =
      some (.tsxi { reg := .al, imm := 0x3574, sel := .fromShift, cond := .oc }) ∧
    decodeTableWord 32 (immWord 0x0F 14 0x2345 3 13) =
      some (.copi { reg := .ph, imm := 0x2345, sel := .reserved, cond := .gt }) := by decide

/-- The opcodes 0x10 to 0x1F. -/
theorem test_decode_memoryAndControl :
    decodeTableWord 32 (immWord 0x10 3 0x8421 1 1) =
      some (.storOff { reg := .r3, imm := 0x8421, pair := .a, cond := .eq }) ∧
    decodeTableWord 32 (regWord 0x11 8 5 11 0 4 13 2 8) =
      some (.storIdx { r1 := .lh, r2 := .r5, r3 := .al, shift := { type := .asr, amount := .literal 13 }
                       pair := .s, cond := .oc }) ∧
    decodeTableWord 32 (immWord 0x12 13 0x8C63 3 15) =
      some (.storPreOff { reg := .sl, imm := 0x8C63, pair := .p, cond := .nv }) ∧
    decodeTableWord 32 (regWord 0x13 2 11 1 1 6 15 0 6) =
      some (.storPreIdx { r1 := .r2, r2 := .al, r3 := .r1, shift := { type := .rtr, amount := .register .pl }
                          pair := .l, cond := .nc }) ∧
    decodeTableWord 32 (immWord 0x14 7 0x94A5 1 13) =
      some (.loadOff { reg := .r7, imm := 0x94A5, pair := .a, cond := .gt }) ∧
    decodeTableWord 32 (regWord 0x15 12 1 7 0 0 1 2 4) =
      some (.loadIdx { r1 := .sh, r2 := .r1, r3 := .r7, shift := { type := .nul, amount := .literal 1 }
                       pair := .s, cond := .cc }) ∧
    decodeTableWord 32 (immWord 0x16 1 0x9CE7 3 11) =
      some (.loadPostOff { reg := .r1, imm := 0x9CE7, pair := .p, cond := .ge }) ∧
    decodeTableWord 32 (regWord 0x17 6 7 13 1 2 3 0 2) =
      some (.loadPostIdx { r1 := .r6, r2 := .r7, r3 := .sl, shift := { type := .lsr, amount := .register .r3 }
                           pair := .l, cond := .ne }) ∧
    decodeTableWord 32 (immWord 0x18 8 0xA529 1 9) =
      some (.ldeaOff { reg := .lh, imm := 0xA529, pair := .a, cond := .hi }) ∧
    decodeTableWord 32 (regWord 0x19 8 13 3 0 4 5 2 0) =
      some (.ldeaIdx { r1 := .lh, r2 := .sl, r3 := .r3, shift := { type := .asr, amount := .literal 5 }
                       pair := .s, cond := .al }) ∧
    decodeTableWord 32 (immWord 0x1A 5 0xAD6B 3 7) =
      some (.branOff { reg := .r5, imm := 0xAD6B, pair := .p, cond := .os }) ∧
    decodeTableWord 32 (regWord 0x1B 10 3 9 1 6 7 0 14) =
      some (.branIdx { r1 := .ah, r2 := .r3, r3 := .ll, shift := { type := .rtr, amount := .register .r7 }
                       pair := .l, cond := .le }) ∧
    decodeTableWord 32 (immWord 0x1C 15 0xB5AD 1 5) =
      some (.ljsrOff { reg := .pl, imm := 0xB5AD, pair := .a, cond := .ns }) ∧
    decodeTableWord 32 (regWord 0x1D 4 9 15 0 0 9 2 12) =
      some (.ljsrIdx { r1 := .r4, r2 := .ll, r3 := .pl, shift := { type := .nul, amount := .literal 9 }
                       pair := .s, cond := .lt }) ∧
    decodeTableWord 32 (immWord 0x1E 9 0xBDEF 3 3) =
      some (.brsrOff { reg := .ll, imm := 0xBDEF, pair := .p, cond := .cs }) ∧
    decodeTableWord 32 (regWord 0x1F 14 15 5 1 2 11 0 10) =
      some (.brsrIdx { r1 := .ph, r2 := .pl, r3 := .r5, shift := { type := .lsr, amount := .register .al }
                       pair := .l, cond := .lo }) := by decide

/-- The opcodes 0x20 to 0x2F. -/
theorem test_decode_short :
    decodeTableWord 32 (shortWord 0x20 2 0x81 0 1 6 1 4) =
      some (.addiShort { reg := .r2, imm8 := 0x81, shift := { type := .lsl, amount := .literal 6 }
                         sel := .fromAlu, cond := .cc }) ∧
    decodeTableWord 32 (shortWord 0x21 9 0xA6 1 2 11 2 7) =
      some (.adciShort { reg := .ll, imm8 := 0xA6, shift := { type := .lsr, amount := .register .al }
                         sel := .fromShift, cond := .os }) ∧
    decodeTableWord 32 (shortWord 0x22 0 0xCB 0 3 0 3 10) =
      some (.subiShort { reg := .sr, imm8 := 0xCB, shift := { type := .asl, amount := .literal 0 }
                         sel := .reserved, cond := .lo }) ∧
    decodeTableWord 32 (shortWord 0x23 7 0xF0 1 4 5 0 13) =
      some (.sbciShort { reg := .r7, imm8 := 0xF0, shift := { type := .asr, amount := .register .r5 }
                         sel := .noUpdate, cond := .gt }) ∧
    decodeTableWord 32 (shortWord 0x24 14 0x15 0 5 10 1 0) =
      some (.andiShort { reg := .ph, imm8 := 0x15, shift := { type := .rtl, amount := .literal 10 }
                         sel := .fromAlu, cond := .al }) ∧
    decodeTableWord 32 (shortWord 0x25 5 0x3A 1 6 15 2 3) =
      some (.orriShort { reg := .r5, imm8 := 0x3A, shift := { type := .rtr, amount := .register .pl }
                         sel := .fromShift, cond := .cs }) ∧
    decodeTableWord 32 (shortWord 0x26 12 0x5F 0 7 4 3 6) =
      some (.xoriShort { reg := .sh, imm8 := 0x5F, shift := { type := .reserved, amount := .literal 4 }
                         sel := .reserved, cond := .nc }) ∧
    decodeTableWord 32 (shortWord 0x27 3 0x84 1 0 9 0 9) =
      some (.loadShort { reg := .r3, imm8 := 0x84, shift := { type := .nul, amount := .register .ll }
                         sel := .noUpdate, cond := .hi }) ∧
    decodeTableWord 32 (shortWord 0x28 10 0xA9 0 1 14 1 12) =
      some (.undoc28 { reg := .ah, imm8 := 0xA9, shift := { type := .lsl, amount := .literal 14 }
                       sel := .fromAlu, cond := .lt }) ∧
    decodeTableWord 32 (shortWord 0x29 1 0xCE 1 2 3 2 15) =
      some (.undoc29 { reg := .r1, imm8 := 0xCE, shift := { type := .lsr, amount := .register .r3 }
                       sel := .fromShift, cond := .nv }) ∧
    decodeTableWord 32 (shortWord 0x2A 8 0xF3 0 3 8 3 2) =
      some (.cmpiShort { reg := .lh, imm8 := 0xF3, shift := { type := .asl, amount := .literal 8 }
                         sel := .reserved, cond := .ne }) ∧
    decodeTableWord 32 (shortWord 0x2B 15 0x18 1 4 13 0 5) =
      some (.undoc2B { reg := .pl, imm8 := 0x18, shift := { type := .asr, amount := .register .sl }
                       sel := .noUpdate, cond := .ns }) ∧
    decodeTableWord 32 (shortWord 0x2C 6 0x3D 0 5 2 1 8) =
      some (.tsaiShort { reg := .r6, imm8 := 0x3D, shift := { type := .rtl, amount := .literal 2 }
                         sel := .fromAlu, cond := .oc }) ∧
    decodeTableWord 32 (shortWord 0x2D 13 0x62 1 6 7 2 11) =
      some (.undoc2D { reg := .sl, imm8 := 0x62, shift := { type := .rtr, amount := .register .r7 }
                       sel := .fromShift, cond := .ge }) ∧
    decodeTableWord 32 (shortWord 0x2E 4 0x87 0 7 12 3 14) =
      some (.tsxiShort { reg := .r4, imm8 := 0x87, shift := { type := .reserved, amount := .literal 12 }
                         sel := .reserved, cond := .le }) ∧
    decodeTableWord 32 (shortWord 0x2F 11 0xAC 1 0 1 0 1) =
      some (.copiShort { reg := .al, imm8 := 0xAC, shift := { type := .nul, amount := .register .r1 }
                         sel := .noUpdate, cond := .eq }) := by decide

/-- The opcodes 0x30 to 0x3F. -/
theorem test_decode_register :
    decodeTableWord 32 (regWord 0x30 5 9 14 1 2 3 1 6) =
      some (.addr { r1 := .r5, r2 := .ll, r3 := .ph, shift := { type := .lsr, amount := .register .r3 }
                    sel := .fromAlu, cond := .nc }) ∧
    decodeTableWord 32 (regWord 0x31 8 14 5 0 3 14 2 15) =
      some (.adcr { r1 := .lh, r2 := .ph, r3 := .r5, shift := { type := .asl, amount := .literal 14 }
                    sel := .fromShift, cond := .nv }) ∧
    decodeTableWord 32 (regWord 0x32 11 3 12 1 4 9 3 8) =
      some (.subr { r1 := .al, r2 := .r3, r3 := .sh, shift := { type := .asr, amount := .register .ll }
                    sel := .reserved, cond := .oc }) ∧
    decodeTableWord 32 (regWord 0x33 14 8 3 0 5 4 0 1) =
      some (.sbcr { r1 := .ph, r2 := .lh, r3 := .r3, shift := { type := .rtl, amount := .literal 4 }
                    sel := .noUpdate, cond := .eq }) ∧
    decodeTableWord 32 (regWord 0x34 1 13 10 1 6 15 1 10) =
      some (.andr { r1 := .r1, r2 := .sl, r3 := .ah, shift := { type := .rtr, amount := .register .pl }
                    sel := .fromAlu, cond := .lo }) ∧
    decodeTableWord 32 (regWord 0x35 4 2 1 0 7 10 2 3) =
      some (.orrr { r1 := .r4, r2 := .r2, r3 := .r1, shift := { type := .reserved, amount := .literal 10 }
                    sel := .fromShift, cond := .cs }) ∧
    decodeTableWord 32 (regWord 0x36 7 7 8 1 0 5 3 12) =
      some (.xorr { r1 := .r7, r2 := .r7, r3 := .lh, shift := { type := .nul, amount := .register .r5 }
                    sel := .reserved, cond := .lt }) ∧
    decodeTableWord 32 (regWord 0x37 10 12 15 0 1 0 0 5) =
      some (.loadReg { r1 := .ah, r2 := .sh, r3 := .pl, shift := { type := .lsl, amount := .literal 0 }
                       sel := .noUpdate, cond := .ns }) ∧
    decodeTableWord 32 (regWord 0x38 13 1 6 1 2 11 1 14) =
      some (.undoc38 { r1 := .sl, r2 := .r1, r3 := .r6, shift := { type := .lsr, amount := .register .al }
                       sel := .fromAlu, cond := .le }) ∧
    decodeTableWord 32 (regWord 0x39 0 6 13 0 3 6 2 7) =
      some (.undoc39 { r1 := .sr, r2 := .r6, r3 := .sl, shift := { type := .asl, amount := .literal 6 }
                       sel := .fromShift, cond := .os }) ∧
    decodeTableWord 32 (regWord 0x3A 3 11 4 1 4 1 3 0) =
      some (.cmpr { r1 := .r3, r2 := .al, r3 := .r4, shift := { type := .asr, amount := .register .r1 }
                    sel := .reserved, cond := .al }) ∧
    decodeTableWord 32 (regWord 0x3B 6 0 11 0 5 12 0 9) =
      some (.undoc3B { r1 := .r6, r2 := .sr, r3 := .al, shift := { type := .rtl, amount := .literal 12 }
                       sel := .noUpdate, cond := .hi }) ∧
    decodeTableWord 32 (regWord 0x3C 9 5 2 1 6 7 1 2) =
      some (.tsar { r1 := .ll, r2 := .r5, r3 := .r2, shift := { type := .rtr, amount := .register .r7 }
                    sel := .fromAlu, cond := .ne }) ∧
    decodeTableWord 32 (regWord 0x3D 12 10 9 0 7 2 2 11) =
      some (.undoc3D { r1 := .sh, r2 := .ah, r3 := .ll, shift := { type := .reserved, amount := .literal 2 }
                       sel := .fromShift, cond := .ge }) ∧
    decodeTableWord 32 (regWord 0x3E 15 15 0 1 0 13 3 4) =
      some (.tsxr { r1 := .pl, r2 := .pl, r3 := .sr, shift := { type := .nul, amount := .register .sl }
                    sel := .reserved, cond := .cc }) ∧
    decodeTableWord 32 (regWord 0x3F 2 4 7 0 1 8 0 13) =
      some (.copr { r1 := .r2, r2 := .r4, r3 := .r7, shift := { type := .lsl, amount := .literal 8 }
                    sel := .noUpdate, cond := .gt }) := by decide

/-- The exception-unit calls of 30_encoding.md R116. -/
theorem test_decode_exceptionUnit :
    decodeTableWord 32 (immWord 0x0F 6 0x1180 2 9) =
      some (.excp { reg := .r6, par := 0x80, sel := .fromShift, cond := .hi }) ∧
    decodeTableWord 32 (immWord 0x0F 6 0x1900 2 9) =
      some (.wait { reg := .r6, par := 0x00, sel := .fromShift, cond := .hi }) ∧
    decodeTableWord 32 (immWord 0x0F 6 0x1A5A 2 9) =
      some (.rete { reg := .r6, par := 0x5A, sel := .fromShift, cond := .hi }) ∧
    decodeTableWord 32 (immWord 0x0F 6 0x1BFF 2 9) =
      some (.rset { reg := .r6, par := 0xFF, sel := .fromShift, cond := .hi }) ∧
    decodeTableWord 32 (immWord 0x0F 6 0x1C36 2 9) =
      some (.etfr { reg := .r6, par := 0x36, sel := .fromShift, cond := .hi }) ∧
    decodeTableWord 32 (immWord 0x0F 6 0x1D17 2 9) =
      some (.ettr { reg := .r6, par := 0x17, sel := .fromShift, cond := .hi }) := by decide

/-- The assembler names of 45_meta_instructions.md. -/
theorem test_decode_names :
    decodeTableWord 32 (immWord 0x00 0 0 0 0) = some (.noop) ∧
    decodeTableWord 32 (immWord 0x18 0xE 0 0 0) = some (.rets) ∧
    decodeTableWord 32 (immWord 0x18 0xE 0x0010 1 11) = some (.ljmpOff { imm := 0x0010, pair := .a, cond := .ge }) ∧
    decodeTableWord 32 (regWord 0x19 0xE 1 7 0 0 0 3 2) =
      some (.ljmpIdx { r2 := .r1, r3 := .r7, shift := { type := .nul, amount := .literal 0 }
                       pair := .p, cond := .ne }) ∧
    decodeTableWord 32 (shortWord 0x20 1 0 1 4 3 2 0) =
      some (.shft { reg := .r1, shift := { type := .asr, amount := .register .r3 }, cond := .al }) ∧
    decodeTableWord 32 (shortWord 0x20 3 0 0 6 5 2 8) =
      some (.shfi { reg := .r3, shift := { type := .rtr, amount := .literal 5 }, cond := .oc }) ∧
    decodeTableWord 32 (regWord 0x30 1 0 2 0 3 3 2 0) =
      some (.shfr { r1 := .r1, r2 := .sr, r3 := .r2, shift := { type := .asl, amount := .literal 3 }
                    cond := .al }) := by decide

/-- What is no whole instruction is refused by name; the memory order of the bytes is the high word first (log 1). -/
theorem test_decode_bytes :
    decode [0x00, 0x40, 0x19] = .error .truncated ∧
    decode [0x00, 0x40, 0x19, 0x10, 0xAA] =
      .ok (.addi { reg := .r1, imm := 100, sel := .fromAlu, cond := .al }, [0xAA]) := ⟨rfl, rfl⟩

/-! ### Steps: vectors of 95_test_vectors.md, section 3, tagged as there -/

/-- The state the vectors start from: p = 0x0001:0x0100, a = 0x0002:0x1000, s = 0x0003:0x8000, all else reset. -/
def base : State :=
  { State.reset with regs := { RegFile.zero with ph := 0x0001, pl := 0x0100, ah := 0x0002, al := 0x1000, sh := 0x0003
                                                 sl := 0x8000 } }

/-- `base` with one register set. -/
def with1 (r : Reg) (v : Word) : State := base.setReg r v

/-- `base` with two registers set. -/
def with2 (r : Reg) (v : Word) (q : Reg) (u : Word) : State := (with1 r v).setReg q u

/-- `s` with one word of memory set. -/
def poked (s : State) (a : Addr) (v : Word) : State := { s with mem := s.mem.writeWord a v }

/-- `s` on a platform with a device at 0x020000 to 0x02FFFF that presents 0x1234 at 0x021000. -/
def onBoard (s : State) : State :=
  { s with
    params := { Params.default with devices := [{ first := 0x020000, last := 0x02FFFF }] }
    deviceWords := [{ addr := 0x021000, value := 0x1234 }] }

/-- `s` with `UNDOC_OPS` = `test`. -/
def testing (s : State) : State := { s with params := { Params.default with undocOps := .test } }

/-- Two words read from the state after the instruction `w` placed at the program counter. -/
def after (s : State) (w : Nat) (g : State → Word × Word) : Option (Word × Word) :=
  match step (s.withFetchWord 32 w) with
  | .next t => some (g t)
  | .fault _ => none
  | .refused _ => none

/-- The refusal of the instruction `w` placed at the program counter. -/
def stops (s : State) (w : Nat) : Option Refusal :=
  match step (s.withFetchWord 32 w) with
  | .next _ => none
  | .fault _ => none
  | .refused r => some r


theorem test_A1_addi :
    after (with1 .r1 0xFFFF) 0x00400050 (fun t => (t.regs.r1, t.regs.sr)) = some (0x0000, 0x0005) := by decide

theorem test_A46_addi_privileged :
    after (with2 .ah 0x0002 .sr 0x0104) 0x02800150
      (fun t => (t.regs.ah, t.faultMeta.sr)) = some (0x0002, 0x0052) := by decide

theorem test_A7_adci :
    after (with2 .r1 0 .sr 0x0004) 0x045FFFD0 (fun t => (t.regs.r1, t.regs.sr)) = some (0x8000, 0x000A) := by decide

theorem test_A9_subi :
    after (with1 .r1 0x8000) 0x08400050 (fun t => (t.regs.r1, t.regs.sr)) = some (0x7FFF, 0x000C) := by decide

theorem test_A13_sbci :
    after (with1 .r1 0x0000) 0x0C7FFFD0 (fun t => (t.regs.r1, t.regs.sr)) = some (0x0000, 0x0001) := by decide

theorem test_A14_andi :
    after (with2 .r1 0x1234 .sr 0x000C) 0x10403FD0
      (fun t => (t.regs.r1, t.regs.sr)) = some (0x0034, 0x0000) := by decide

theorem test_A17_orri :
    after (with1 .r2 0x0123) 0x14BC0010 (fun t => (t.regs.r2, t.regs.sr)) = some (0xF123, 0x0002) := by decide

theorem test_A39_orri_sr :
    after (with1 .sr 0x0001) 0x14004010 (fun t => (t.regs.sr, t.regs.pl)) = some (0x0100, 0x0102) := by decide

theorem test_A18_xori :
    after (with1 .r2 0x00FF) 0x18BFFFD0 (fun t => (t.regs.r2, t.regs.sr)) = some (0xFF00, 0x0002) := by decide

theorem test_A21_load :
    after (with1 .sr 0x0005) 0x1C4134B0 (fun t => (t.regs.r1, t.regs.sr)) = some (0x04D2, 0x0005) := by decide

theorem test_A24_cmpi :
    after (with1 .r1 0x8000) 0x28400050 (fun t => (t.regs.r1, t.regs.sr)) = some (0x8000, 0x000C) := by decide

theorem test_A27_tsai :
    after (with2 .r1 0x0020 .sr 0x000C) 0x30400810
      (fun t => (t.regs.r1, t.regs.sr)) = some (0x0020, 0x0000) := by decide

theorem test_A30_tsxi :
    after (with1 .r1 0x9234) 0x38448D10 (fun t => (t.regs.r1, t.regs.sr)) = some (0x9234, 0x0002) := by decide

theorem test_A35_false_condition :
    after (with1 .r5 0x0001) 0x01400A91 (fun t => (t.regs.r5, t.regs.pl)) = some (0x0001, 0x0102) := by decide

theorem test_A38_noop :
    after (with1 .sr 0x5E0F) 0x00000000 (fun t => (t.regs.sr, t.regs.pl)) = some (0x5E0F, 0x0102) := by decide

theorem test_A45_addi_pl :
    after base 0x03C00110 (fun t => (t.regs.pl, t.regs.sr)) = some (0x0106, 0x0000) := by decide

theorem test_B1_addi_short :
    after (with1 .r1 0x000F) 0x80404710 (fun t => (t.regs.r1, t.regs.sr)) = some (0xF001, 0x0002) := by decide

theorem test_B5_adci_short :
    after (with2 .r1 0x8001 .sr 0x0004) 0x84400450
      (fun t => (t.regs.r1, t.regs.sr)) = some (0x0003, 0x0000) := by decide

theorem test_B7_subi_short :
    after (with2 .r4 0x0003 .r2 0x0002) 0x89016490
      (fun t => (t.regs.r4, t.regs.sr)) = some (0x0007, 0x0004) := by decide

theorem test_B9_sbci_short :
    after (with1 .r1 0x0001) 0x8C404010 (fun t => (t.regs.r1, t.regs.sr)) = some (0xFFFF, 0x0002) := by decide

theorem test_B11_andi_short :
    after (with1 .r3 0x8014) 0x90C1D090 (fun t => (t.regs.r3, t.regs.sr)) = some (0x0005, 0x0000) := by decide

theorem test_B12_orri_short :
    after (with1 .r2 0x0001) 0x94804690 (fun t => (t.regs.r2, t.regs.sr)) = some (0x0401, 0x0000) := by decide

theorem test_B14_xori_short :
    after (with1 .r7 0x00F0) 0x99C3C910 (fun t => (t.regs.r7, t.regs.sr)) = some (0x0000, 0x0001) := by decide

theorem test_B15_load_short :
    after (with2 .r1 0xFFFF .sr 0x000F) 0x9C448010
      (fun t => (t.regs.r1, t.regs.sr)) = some (0x0012, 0x000F) := by decide

theorem test_B17_cmpi_short :
    after (with2 .r1 0x0004 .r3 0x0001) 0xA84234D0
      (fun t => (t.regs.r1, t.regs.sr)) = some (0x0004, 0x0005) := by decide

theorem test_B20_tsai_short :
    after (with1 .r1 0x0010) 0xB0404910 (fun t => (t.regs.r1, t.regs.sr)) = some (0x0010, 0x0000) := by decide

theorem test_B21_tsxi_short :
    after (with1 .r1 0x5500) 0xB8554A10 (fun t => (t.regs.r1, t.regs.sr)) = some (0x5500, 0x0001) := by decide

theorem test_B34_shfi_asl_overflow :
    after (with1 .r1 0xA000) 0x80400CA0 (fun t => (t.regs.r1, t.regs.sr)) = some (0x8000, 0x000A) := by decide

theorem test_B42_shfi_rtl :
    after (with2 .r1 0x1234 .sr 0x0004) 0x80401520
      (fun t => (t.regs.r1, t.regs.pl)) = some (0x2348, 0x0102) := by decide

theorem test_B53_shft :
    after (with1 .r1 0x0003) 0x80402460 (fun t => (t.regs.r1, t.regs.pl)) = some (0x0018, 0x0102) := by decide

theorem test_K2_addr :
    after (with2 .r2 0x0003 .r3 0x0005) 0xC048C490
      (fun t => (t.regs.r1, t.regs.sr)) = some (0x0011, 0x0000) := by decide

theorem test_K6_addr_same_register :
    after (with1 .r1 0x4000) 0xC0444010 (fun t => (t.regs.r1, t.regs.sr)) = some (0x8000, 0x000A) := by decide

theorem test_K12_adcr :
    after (with2 .r3 0xFFFF .sr 0x0004) 0xC44D4010
      (fun t => (t.regs.r1, t.regs.sr)) = some (0x0000, 0x0005) := by decide

theorem test_K14_subr :
    after (with2 .r1 0x0005 .r2 0x0007) 0xC8C48010
      (fun t => (t.regs.r3, t.regs.sr)) = some (0xFFFE, 0x0002) := by decide

theorem test_K16_sbcr :
    after (with2 .r3 0x0005 .r5 0x0002) 0xCC4D4010
      (fun t => (t.regs.r1, t.regs.sr)) = some (0x0002, 0x0004) := by decide

theorem test_K18_andr :
    after (with2 .r1 0xF0F0 .r2 0x0FF0) 0xD0C48010
      (fun t => (t.regs.r3, t.regs.sr)) = some (0x00F0, 0x0000) := by decide

theorem test_K20_orrr :
    after (with2 .r1 0xF000 .r2 0x000F) 0xD4C48010
      (fun t => (t.regs.r3, t.regs.sr)) = some (0xF00F, 0x0002) := by decide

theorem test_K23_xorr :
    after (with2 .r3 0x0001 .sr 0x0004) 0xD88D1850
      (fun t => (t.regs.r2, t.regs.sr)) = some (0x8000, 0x0002) := by decide

theorem test_K27_load_sr_protected :
    after (with1 .sr 0x5FF5) 0xDC440010 (fun t => (t.regs.r1, t.regs.sr)) = some (0x00F5, 0x5FF5) := by decide

theorem test_K29_load_into_sr_protected :
    after (with2 .r7 0x00AA .sr 0x4105) 0xDC01C010
      (fun t => (t.regs.sr, t.regs.pl)) = some (0x41AA, 0x0102) := by decide

theorem test_K32_cmpr :
    after (with2 .r4 0x0005 .r5 0x0005) 0xE9114010
      (fun t => (t.regs.r4, t.regs.sr)) = some (0x0005, 0x0005) := by decide

theorem test_K34_tsar :
    after (with2 .r1 0x8010 .r3 0x8000) 0xF044C010
      (fun t => (t.regs.r1, t.regs.sr)) = some (0x8010, 0x0002) := by decide

theorem test_K35_tsxr :
    after (with2 .r1 0xABCD .r2 0xABCD) 0xF8448010
      (fun t => (t.regs.r1, t.regs.sr)) = some (0xABCD, 0x0001) := by decide

theorem test_K36_shfr :
    after (with2 .sr 0x0005 .r2 0x0100) 0xC0408CE0
      (fun t => (t.regs.r1, t.regs.sr)) = some (0x0128, 0x0000) := by decide

theorem test_undocumented_keeps_flags :
    after (with2 .sr 0x000F .r1 0x1234) (immWord 0x08 1 0xFFFF 0 0)
      (fun t => (t.regs.r1, t.regs.sr)) = some (0x1234, 0x000F) := by decide

theorem test_E2_stor :
    after (with1 .r4 0x1111) 0x413FFFA0
      (fun t => (t.mem.readWord 0x037FFE, t.regs.sl)) = some (0x1111, 0x8000) := by decide

theorem test_E4_stor_register :
    after (with2 .r1 0x8003 .r2 0x0004) 0x44480450
      (fun t => (t.mem.readWord 0x021004, t.regs.r1)) = some (0x0006, 0x8003) := by decide

theorem test_E7_stor_predecrement :
    after (with1 .r3 0x3333) 0x48C000A0
      (fun t => (t.mem.readWord 0x038001, t.regs.sl)) = some (0x3333, 0x7FFF) := by decide

theorem test_E9_stor_predecrement_register :
    after (with1 .r1 0x0013) 0x4C480890
      (fun t => (t.mem.readWord 0x020FFF, t.regs.al)) = some (0x0004, 0x0FFF) := by decide

theorem test_E11_stor_segment_overflow :
    after (with2 .sl 0x0000 .sr 0x4000) 0x49000020
      (fun t => (t.regs.sl, t.faultMeta.sr)) = some (0x0000, 0x0033) := by decide

theorem test_E19_load_own_word :
    after base 0x507FFFB0 (fun t => (t.regs.r1, t.regs.pl)) = some (0x507F, 0x0102) := by decide

theorem test_E22_load_register :
    after (poked (with1 .r2 0x0001) 0x021001 0x4001) 0x54C80490
      (fun t => (t.regs.r3, t.regs.sr)) = some (0x0004, 0x0000) := by decide

theorem test_E26_load_postincrement :
    after (poked base 0x038002 0x0002) 0x584000A0
      (fun t => (t.regs.r1, t.regs.sl)) = some (0x0002, 0x8001) := by decide

theorem test_E27_load_postincrement_register :
    after (poked (with1 .r2 0x0003) 0x021003 0x0021) 0x5CC80450
      (fun t => (t.regs.r3, t.regs.al)) = some (0x0042, 0x1001) := by decide

theorem test_F1_ldea : after base 0x62800410 (fun t => (t.regs.ah, t.regs.al)) = some (0x0002, 0x1010) := by decide

theorem test_F2_ldea_register :
    after (with1 .r1 0x0020) 0x67040010 (fun t => (t.regs.sh, t.regs.sl)) = some (0x0002, 0x1020) := by decide

theorem test_F4_ljmp_register :
    after (with1 .r1 0x0008) 0x67840030 (fun t => (t.regs.ph, t.regs.pl)) = some (0x0001, 0x010A) := by decide

theorem test_F5_rets :
    after (with2 .lh 0x0004 .ll 0x0200) 0x63800000
      (fun t => (t.regs.ph, t.regs.pl)) = some (0x0004, 0x0200) := by decide

theorem test_F7_ljmp :
    after (with2 .ah 0x0040 .al 0x0000) 0x63800410
      (fun t => (t.regs.ph, t.regs.pl)) = some (0x0040, 0x0010) := by decide

theorem test_F15_bran : after base 0x683FFC32 (fun t => (t.regs.ph, t.regs.pl)) = some (0x0001, 0x00F2) := by decide

theorem test_F18_bran_register :
    after (with1 .r1 0xFFF0) 0x6C040030 (fun t => (t.regs.ph, t.regs.pl)) = some (0x0001, 0x00F2) := by decide

theorem test_F24_ljsr :
    after (with2 .ah 0x0040 .al 0x0000) 0x70000010
      (fun t => (t.regs.ph, t.regs.ll)) = some (0x0040, 0x0102) := by decide

theorem test_F26_ljsr_register :
    after (with1 .r1 0x0008) 0x74040010 (fun t => (t.regs.pl, t.regs.lh)) = some (0x1008, 0x0001) := by decide

theorem test_F28_brsr : after base 0x780002B0 (fun t => (t.regs.pl, t.regs.ll)) = some (0x010C, 0x0102) := by decide

theorem test_F29_brsr_register :
    after (with1 .r1 0x0040) 0x7C040030 (fun t => (t.regs.pl, t.regs.ll)) = some (0x0142, 0x0102) := by decide

theorem test_F33_fetch_overflow :
    after (with2 .pl 0xFFFE .sr 0x4000) 0x00000000
      (fun t => ((t.links[6]).sr, t.faultMeta.sr)) = some (0x4000, 0x0031) := by decide

theorem test_F34_fetch_alignment :
    after (with2 .pl 0x0101 .sr 0x0100) 0x00000000
      (fun t => (t.srFull, t.faultMeta.sr)) = some (0x2000, 0x0020) := by decide

theorem test_G1_excp :
    after (poked (with1 .sr 0x0305) 0x000101 0x5000) 0x3C046000
      (fun t => (t.regs.pl, t.srFull)) = some (0x5000, 0x2205) := by decide

theorem test_G7_wait :
    after (with1 .sr 0x0200) 0x3C064000
      (fun t => (BitVec.ofNat 16 t.waiting.toNat, t.regs.pl)) = some (1, 0x0102) := by decide

theorem test_G9_rete :
    after ({ with1 .sr 0x0008 with level := 1, links := base.links.set 0 { addr := 0x00010200, sr := 0x2305, level := 0 } }) 0x3C068000
      (fun t => (t.srFull, t.regs.pl)) = some (0x0305, 0x0200) := by decide

theorem test_G13_rset :
    after ({ poked (with1 .sr 0x5E0F) 0x000000 0x0001 with level := 3 }) 0x3C06C000
      (fun t => (t.regs.sr, t.regs.ph)) = some (0x0000, 0x0001) := by decide

theorem test_G16_etfr :
    after ({ base with links := base.links.set 6 { addr := 0x00010201, sr := 0x0104, level := 0 } }) 0x3C070580
      (fun t => (t.regs.al, t.regs.r7)) = some (0x0201, 0x0000) := by decide

theorem test_G23_ettr :
    after ({ with1 .r7 0x0004 with links := base.links.set 6 { addr := 0x00010201, sr := 0x0104, level := 2 } }) 0x3C074980
      (fun t => ((t.links[6]).sr, (t.links[6]).addr.extractLsb' 0 16)) = some (0x0004, 0x0201) := by decide

theorem test_G26_copi_absent_unit :
    after base 0x3C080000
      (fun t => (t.faultMeta.sr, (t.links[6]).addr.extractLsb' 0 16)) = some (0x0042, 0x0100) := by decide

theorem test_G33_copr :
    after (with1 .r1 0x1900) 0xFC004000
      (fun t => (BitVec.ofNat 16 t.waiting.toNat, t.cause)) = some (1, 0x1900) := by decide

/-! ### The parameters of 00_scope.md R6 -/

/-- A LOAD from a device gives the word it presents, and STOR sends it the word and leaves memory alone (20_memory.md
R76). -/
theorem test_device_load_stor :
    after (with1 .r1 0 |> onBoard) 0x50400010 (fun t => (t.regs.r1, t.regs.pl)) = some (0x1234, 0x0102) ∧
    after (with1 .r1 0xBEEF |> onBoard) 0x40400010
      (fun t => (t.mem.readWord 0x021000, (t.deviceWrites.map (·.value)).headD 0)) = some (0, 0xBEEF) := by decide

/-- What a device presents can change at a boundary (R6 `DeviceRead`). -/
theorem test_device_changes :
    after { onBoard base with deviceEvents := [[{ addr := 0x021000, value := 0x0077 }]] } 0x50400010
      (fun t => (t.regs.r1, t.regs.pl)) = some (0x0077, 0x0102) := by decide

/-- `UNDOC_OPS` = `test`: opcode 0x08 is ADDI without the write-back (46_undocumented.md R341), 0x28 the same on the shifted
register (R342), 0x3D ORR of a shifted register and R3 (R343). -/
theorem test_undocumented_tests :
    after (testing (with1 .r1 0x8000)) (immWord 0x08 1 0x8000 1 0) (fun t => (t.regs.r1, t.regs.sr)) =
      some (0x8000, 0x000D) ∧
    after (testing (with1 .r1 0x4000)) (shortWord 0x28 1 1 0 1 1 1 0) (fun t => (t.regs.r1, t.regs.sr)) =
      some (0x4000, 0x0002) ∧
    after (testing (with2 .r2 0x0001 .r3 0x8000)) (regWord 0x3D 1 2 3 0 2 1 1 0) (fun t => (t.regs.r1, t.regs.sr)) =
      some (0, 0x0002) := by decide

/-- `FAULT_CODE`: an alignment fault with a code of the platform's, and its vector as ever (60_exceptions.md R365). -/
theorem test_faultCode :
    after { with1 .pl 0x0101 with params := { Params.default with faultCodes := [{ fault := .alignment, code := 0x9 }] } }
      0x00000000 (fun t => (t.faultMeta.sr, t.cause)) = some (0x0090, 0x1E02) := by decide

/-- An interrupt that arrives at a boundary is entered in that step (60_exceptions.md R371). -/
theorem test_event_entered :
    (match step { poked (with1 .sr 0x0200) 0x000021 0x6000 with irqEvents := [[.line1]] } with
     | .next t => some (t.regs.pl, t.cause, t.level)
     | .fault _ => none
     | .refused _ => none) = some (0x6000, 0x1F10, 6) := by decide

theorem test_refusals :
    stops base 0x00400070 = some .reservedStatusSelect ∧ stops base 0x80401C50 = some .reservedShiftType ∧
    stops base 0x9C448610 = some .shiftFieldsNotZero ∧ stops base 0x60400010 = some .destinationNotAPair ∧
    stops base 0x68000510 = some .branchPairNotProgramCounter ∧
    stops (with1 .sr 0x0100) 0x780002B0 = some .brsrInProtectedMode ∧
    stops base 0xBC064000 = some .processingUnitCall ∧ stops base 0x3C0457C0 = some .excpVectorOutOfRange ∧
    stops { base with level := 1 } 0x3C046000 = some .excpInsideHandler ∧
    stops base 0x3C068000 = some .reteOutsideHandler ∧ stops base 0x3C070E00 = some .linkIndexOutOfRange ∧
    stops base (regWord 0x3F 1 1 1 0 7 0 0 0) = some .reservedShiftType ∧
    stops base (shortWord 0x2F 1 0x19 0 7 0 0 0) = some .reservedShiftType ∧
    stops { base with params := { Params.default with optionalUnits := [0x2] } } 0x3C080000 = some .optionalUnitCall := by
  decide

/-! ### Witnesses: for every statement with hypotheses, a state and operands that meet them together, clause by clause -/

/-- `State.reset` with a status register. -/
def withSr (v : Word) : State := { State.reset with regs := { RegFile.zero with sr := v } }

/-- Supervisor mode, and protected mode. -/
def sup : State := State.reset
def prot : State := withSr 0x0100

/-- Supervisor mode with SR.A set, and one pair's low register at the top of its segment. -/
def trapping : State := { withSr 0x4000 with regs := { RegFile.zero with sr := 0x4000, ll := 0xFFFF, pl := 0xFFFC } }

/-- A platform that answers every access of one kind with a bus error. -/
def busFails (kind : AccessKind) : State := { State.reset with busErrors := [{ first := 0, last := 0xFFFFFF, kind := kind }] }

/-- The same on one address only. -/
def busFailsAt (a : Addr) (kind : AccessKind) : State :=
  { State.reset with busErrors := [{ first := a, last := a, kind := kind }] }

/-- Shift fields of zero, and a shift by a register. -/
def zeroShift : Shift := { type := .nul, amount := .literal 0 }
def regShift : Shift := { type := .rtr, amount := .register .r2 }

/-- One record of every format, always executed. -/
def immAlu : ImmAlu := { reg := .r1, imm := 0x8000, sel := .fromAlu, cond := .al }
def shortAlu : ShortAlu := { reg := .r1, imm8 := 0xFF, shift := regShift, sel := .fromAlu, cond := .al }
def regAlu : RegAlu := { r1 := .r1, r2 := .r2, r3 := .r3, shift := regShift, sel := .fromAlu, cond := .al }
def immMem : ImmMem := { reg := .r1, imm := 0xFFFF, pair := .l, cond := .al }
def regMem : RegMem := { r1 := .r1, r2 := .r2, r3 := .r3, shift := zeroShift, pair := .l, cond := .al }
def unitOp (par : BitVec 8) : UnitCall := { reg := .sr, par := par, sel := .noUpdate, cond := .al }

/-- A fault can be taken wherever no access fails. -/
theorem canFault_of (s : State) (f : FaultKind) (hb : s.busErrors = []) : s.canFault f := by
  constructor <;> simp [State.busError, hb]

/-- A state that is not at level 7 has entered no fault. -/
theorem not_faults {s t : State} (h : t.level ≠ 7) (f : FaultKind) (phase : BitVec 3) (bus : Addr) :
    ¬faults f phase bus s (.next t) := by
  rintro ⟨_, ⟨⟩, e⟩
  by_cases h7 : s.level = 7
  · exact h (e.double h7).entry.level
  · exact h (e.first h7).entry.level

/-- The words 0x1234 presented by a device at 0x020000 to 0x02FFFF, and the units 0x2 and 0xF present. -/
def board : State :=
  { State.reset with
    params := { Params.default with devices := [{ first := 0x020000, last := 0x02FFFF }], optionalUnits := [0x2, 0xF] }
    deviceWords := [{ addr := 0x021000, value := 0x1234 }] }

/-- Inside a fault handler. -/
def handling : State := { State.reset with level := 7 }

theorem witness_DecodeOfEncode :
    wellFormed (.storPreIdx { r1 := .pl, r2 := .sr, r3 := .pl, shift := { type := .reserved, amount := .register .pl }
                              pair := .p, cond := .nv }) = true ∧
    wellFormed (.etfr (unitOp 0xFF)) = true := by decide

theorem witness_StepRunsDecoded :
    serviceInterrupt sup.atBoundary = none ∧ sup.atBoundary.waiting = false ∧
    sup.atBoundary.beginInstr.fetchFault = none ∧ decode sup.atBoundary.fetchBytes = .ok (.noop, []) ∧
    wellFormed .noop = true ∧ sup.Quiet ∧ sup.traceMode = false ∧ sup.beginInstr.fetchFault = none ∧
    decode sup.fetchBytes = .ok (.noop, []) :=
  ⟨rfl, rfl, rfl, rfl, rfl, ⟨rfl, rfl, rfl, rfl⟩, rfl, rfl, rfl⟩

/-- An odd program counter (in a handler whose latch of line 1 is masked, too); a bus error on the first word, on the second;
the last instruction of a segment with SR.A; the one before it, which does not fault; each with what the service point asks. -/
theorem witness_FetchFaults :
    (let t := (sup.setReg .pl 0x0001).atBoundary
     serviceInterrupt t = none ∧ t.waiting = false ∧ t.regs.pl.getLsbD 0 = true ∧ t.beginInstr.canFault .alignment) ∧
    (let t := ({ handling with pending := { Pending.none with line1 := true } }.setReg .pl 0x0001).atBoundary
     serviceInterrupt t = none ∧ t.waiting = false ∧ t.regs.pl.getLsbD 0 = true ∧ t.beginInstr.canFault .alignment) ∧
    (let t := (busFails .fetch).atBoundary
     serviceInterrupt t = none ∧ t.waiting = false ∧ t.regs.pl.getLsbD 0 = false ∧
       t.busError (busAddr t.regs.ph t.regs.pl) .fetch = true ∧ t.beginInstr.canFault .bus) ∧
    (let t := (busFailsAt 0x000001 .fetch).atBoundary
     serviceInterrupt t = none ∧ t.waiting = false ∧ t.regs.pl.getLsbD 0 = false ∧
       t.busError (busAddr t.regs.ph t.regs.pl) .fetch = false ∧
       t.busError (busAddr t.regs.ph (t.regs.pl + 1)) .fetch = true ∧ t.beginInstr.canFault .bus) ∧
    (let t := ((withSr 0x4000).setReg .pl 0xFFFE).atBoundary
     serviceInterrupt t = none ∧ t.waiting = false ∧ t.regs.pl = 0xFFFE ∧ t.trapOverflow = true ∧
       t.busError (busAddr t.regs.ph t.regs.pl) .fetch = false ∧
       t.busError (busAddr t.regs.ph (t.regs.pl + 1)) .fetch = false ∧ t.beginInstr.canFault .segmentOverflow) ∧
    (let t := ((withSr 0x4000).setReg .pl 0xFFFC).atBoundary
     serviceInterrupt t = none ∧ t.waiting = false ∧ t.regs.pl.getLsbD 0 = false ∧
       t.busError (busAddr t.regs.ph t.regs.pl) .fetch = false ∧
       t.busError (busAddr t.regs.ph (t.regs.pl + 1)) .fetch = false ∧ (t.regs.pl = 0xFFFE → t.trapOverflow = false)) :=
  ⟨⟨rfl, rfl, rfl, rfl, rfl⟩, ⟨rfl, rfl, rfl, rfl, rfl⟩, ⟨rfl, rfl, rfl, rfl, rfl, rfl⟩, ⟨rfl, rfl, rfl, rfl, rfl, rfl, rfl⟩,
    ⟨rfl, rfl, rfl, rfl, rfl, rfl, rfl, rfl⟩, rfl, rfl, rfl, rfl, rfl, fun h => absurd h (by decide)⟩

theorem witness_FaultEntry (f : FaultKind) :
    sup.level ≠ 7 ∧ { sup with level := 6 }.level ≠ 7 ∧ sup.vectorReadable (vectorOf f) :=
  ⟨by decide, by decide, by constructor <;> rfl⟩

/-- FaultEntry: a code that is the default, and the first of two that are listed. -/
theorem witness_FaultEntry_codes :
    (∀ c ∈ sup.params.faultCodes, c.fault ≠ .bus) ∧
    (let p := { Params.default with faultCodes := [{ fault := .bus, code := 9 }, { fault := .trace, code := 8 },
                                                   { fault := .trace, code := 7 }] }
     p.faultCodes = [{ fault := .bus, code := 9 }] ++ { fault := .trace, code := 8 } :: [{ fault := .trace, code := 7 }] ∧
       ∀ c ∈ [({ fault := .bus, code := 9 } : FaultCode)], c.fault ≠ .trace) := by decide

/-- A vector that cannot be read, by its first word and by its second: for FaultEntry and SoftwareReset. -/
theorem witness_unreadableVector :
    ¬(busFails .vector).vectorReadable 0xFF ∧ ¬(busFailsAt 0x000001 .vector).vectorReadable 0x00 :=
  ⟨fun h => absurd h.1 (by decide), fun h => absurd h.2 (by decide)⟩

/-- Level 7, with the default codes; and an odd program counter there, with a latch of line 1 that is masked. -/
theorem witness_DoubleFaultEntry :
    (handling.level = 7 ∧ handling.vectorReadable 0x06 ∧ handling.params.faultCodes = []) ∧
    (let t := ({ handling with pending := { Pending.none with line1 := true } }.setReg .pl 0x0001).atBoundary
     serviceInterrupt t = none ∧ t.waiting = false ∧ t.regs.pl.getLsbD 0 = true ∧ t.level = 7 ∧
       t.beginInstr.vectorReadable 0x06) :=
  ⟨⟨rfl, ⟨rfl, rfl⟩, rfl⟩, rfl, rfl, rfl, rfl, rfl, rfl⟩

/-- Line 1 from level 5, arriving at this very boundary, and line 5 (which has no enable bit) from level 1 with line 4
pending and disabled. -/
theorem witness_InterruptEntry :
    (let b := { withSr 0x0200 with level := 5, irqEvents := [[.line1]] }.atBoundary
     b.pending.get .line1 = true ∧ b.lineEnabled .line1 = true ∧ b.level < lineLevel .line1 ∧
       (∀ j, lineLevel .line1 < lineLevel j → b.eligible j = false) ∧ b.vectorReadable (lineVector .line1)) ∧
    (let b := { sup with level := 1, pending := { Pending.none with line4 := true, line5 := true } }.atBoundary
     b.pending.get .line5 = true ∧ b.lineEnabled .line5 = true ∧ b.level < lineLevel .line5 ∧
       (∀ j, lineLevel .line5 < lineLevel j → b.eligible j = false) ∧ b.vectorReadable (lineVector .line5)) := by
  refine ⟨⟨rfl, rfl, by decide, ?_, rfl, rfl⟩, ⟨rfl, rfl, by decide, ?_, rfl, rfl⟩⟩ <;>
    intro j <;> cases j <;> decide

theorem witness_EventLatching :
    { withSr 0x0200 with irqEvents := [[.line1, .line2, .line5], []] }.irqEvents = [.line1, .line2, .line5] :: [[]] ∧
    { board with deviceEvents := [[], []] }.deviceEvents = [] :: [[]] ∧ board.irqEvents = [] ∧ board.deviceEvents = [] :=
  ⟨rfl, rfl, rfl, rfl⟩

/-- The event latched before, and the event of this very boundary. -/
theorem witness_LevelFiveConflict :
    (let b := { withSr 0x0200 with level := 6, pending := { Pending.none with line1 := true } }.atBoundary
     b.pending.line1 = true ∧ b.regs.sr.getLsbD 9 = true ∧ b.level = 6 ∧
       b.vectorReadable (vectorOf .levelFiveConflict)) ∧
    (let b := { withSr 0x0200 with level := 6, irqEvents := [[.line1]] }.atBoundary
     b.pending.line1 = true ∧ b.regs.sr.getLsbD 9 = true ∧ b.level = 6 ∧
       b.vectorReadable (vectorOf .levelFiveConflict)) := ⟨⟨rfl, rfl, rfl, rfl, rfl⟩, rfl, rfl, rfl, rfl, rfl⟩

theorem witness_WaitHolds :
    let s := { sup with waiting := true, pending := { Pending.none with line1 := true } }
    s.atBoundary.waiting = true ∧ (∀ k, s.atBoundary.eligible k = false) ∧ s.atBoundary.levelFiveConflict = false ∧
      s.irqEvents = [] ∧ s.deviceEvents = [] := by
  refine ⟨rfl, ?_, rfl, rfl, rfl⟩
  intro k
  cases k <;> rfl

/-- Under trace: NOOP, which completes; a call of an absent unit, which faults; an odd program counter, whose fetch faults. -/
theorem witness_TraceFault :
    (let t := (withSr 0x8000).atBoundary
     serviceInterrupt t = none ∧ t.waiting = false ∧ t.traceMode = true ∧ t.beginInstr.fetchFault = none ∧
       decode t.fetchBytes = .ok (.noop, []) ∧
       ∃ u, exec .noop t.beginInstr = .next u ∧ (∀ f phase bus, ¬faults f phase bus t.beginInstr (.next u)) ∧
         u.canFault .trace) ∧
    (let t := ((withSr 0x8000).withFetchWord 32 0x3C080000).atBoundary
     let i := Instr.copi { reg := .sr, imm := 0x2000, sel := .noUpdate, cond := .al }
     serviceInterrupt t = none ∧ t.waiting = false ∧ t.traceMode = true ∧ t.beginInstr.fetchFault = none ∧
       decode t.fetchBytes = .ok (i, []) ∧
       ∃ u, exec i t.beginInstr = .next u ∧ faults .invalidOpcode 2 0 t.beginInstr (.next u)) ∧
    (let t := ((withSr 0x8000).setReg .pl 0x0001).atBoundary
     serviceInterrupt t = none ∧ t.waiting = false ∧ t.traceMode = true ∧
       t.beginInstr.fetchFault = some (.alignment, 0, 0) ∧ t.beginInstr.canFault .alignment) := by
  refine ⟨⟨rfl, rfl, rfl, rfl, rfl, _, rfl, not_faults (by decide), canFault_of _ _ rfl⟩,
    ⟨rfl, rfl, rfl, rfl, rfl, ?_⟩, rfl, rfl, rfl, rfl, canFault_of _ _ rfl⟩
  let t := ((withSr 0x8000).withFetchWord 32 0x3C080000).beginInstr
  let m : FaultMeta := { addr := 0, sr := 0x0042 }
  have e := entered_of_enterException (s := { t with faultMeta := m, cause := 0x1E04 }) (v := 0x04) (l := 7) (k := 6)
    (ret := t.pc) rfl
  exact ⟨_, rfl, _, rfl, fun _ => ⟨⟨e.1.target, e.1.level, e.1.waiting, e.1.saved, e.1.others, e.1.supervisor, e.1.traceOff,
    e.1.status, e.1.regs, ⟨fun _ => rfl, rfl⟩, ⟨rfl, rfl, rfl, rfl, rfl, rfl⟩⟩, rfl, rfl, rfl, rfl, rfl, rfl, rfl⟩,
    fun h => absurd h (by decide)⟩

theorem witness_RegisterRead :
    Reg.pl ≠ .sr ∧ prot.protectedMode = true ∧ sup.protectedMode = false ∧ (12 : Nat) ≠ 13 ∧ (14 : Nat) ≠ 13 := by decide

theorem witness_RegisterWrite : Reg.r1 ≠ .sr ∧ Reg.pl ≠ .sr := by decide

theorem witness_LogicOperations :
    ((AluOp.xor = .and ∧ (· ^^ ·) = (· && ·)) ∨ (AluOp.xor = .orr ∧ (· ^^ ·) = (· || ·)) ∨
      (AluOp.xor = .xor ∧ (· ^^ ·) = ((· ^^ ·) : Bool → Bool → Bool))) ∧ 15 < 16 :=
  ⟨.inr (.inr ⟨rfl, rfl⟩), by decide⟩

/-- For ShiftsAsArithmetic, AslOverflow and RotatesThroughCarry: the smallest and the largest count. -/
theorem witness_ShiftsAsArithmetic : (1 ≤ 1 ∧ 1 ≤ 15) ∧ (1 ≤ 15 ∧ 15 ≤ 15) ∧ 16 < 17 := by decide

theorem witness_AslOverflow : 0 ≤ 15 ∧ 15 ≤ 15 := by decide

theorem witness_RotatesThroughCarry :
    1 ≤ 15 ∧ 15 ≤ 15 ∧ ({ value := 0x8000, carry := false, overflow := false } : ShiftOut) = shiftBy .rtl 15 0x0001 false ∧
    ({ value := 0x0004, carry := false, overflow := false } : ShiftOut) = shiftBy .rtr 15 0x0001 false := by decide

theorem witness_ShiftCounts :
    ShiftType.lsl ≠ .nul ∧ (sup.readReg .r1).toNat ≤ 15 ∧ ((with1 .r1 15).readReg .r1).toNat ≤ 15 ∧
    (sup.readReg .r1).toNat = 0 := by decide

theorem witness_FalseCondition :
    condHolds (condOf (.rset { unitOp 0 with cond := .nv })) sup.flags = false ∧
    condHolds (condOf (.copiShort { shortAlu with cond := .eq })) sup.flags = false := by decide

theorem witness_ImmediateSaves :
    condHolds immAlu.cond sup.flags = true ∧ immAlu.sel ≠ .reserved ∧ sup.writeForbidden immAlu.reg = false ∧
    prot.writeForbidden immAlu.reg = false ∧ prot.writeForbidden .sr = false ∧ prot.writeForbidden .pl = false ∧
    sup.writeForbidden .ph = false := by decide

theorem witness_ImmediateTests :
    condHolds immAlu.cond prot.flags = true ∧ { immAlu with sel := .fromShift }.sel ≠ .reserved := by decide

theorem witness_ShortImmediateSaves :
    condHolds shortAlu.cond sup.flags = true ∧ shortAlu.sel ≠ .reserved ∧ shortAlu.shift.type ≠ .reserved ∧
    sup.writeForbidden shortAlu.reg = false ∧ prot.writeForbidden shortAlu.reg = false ∧ (0x7F#8).toNat < 0x80 ∧
    0x80 ≤ (0x80#8).toNat := by decide

theorem witness_ShortImmediateTests :
    condHolds shortAlu.cond sup.flags = true ∧ shortAlu.sel ≠ .reserved ∧ shortAlu.shift.type ≠ .reserved := by decide

theorem witness_RegisterSaves :
    condHolds regAlu.cond sup.flags = true ∧ regAlu.sel ≠ .reserved ∧ regAlu.shift.type ≠ .reserved ∧
    sup.writeForbidden regAlu.r1 = false ∧ prot.writeForbidden regAlu.r1 = false := by decide

theorem witness_RegisterTests :
    condHolds regAlu.cond sup.flags = true ∧ regAlu.sel ≠ .reserved ∧ regAlu.shift.type ≠ .reserved := by decide

theorem witness_LoadValue :
    condHolds immAlu.cond sup.flags = true ∧ sup.writeForbidden immAlu.reg = false ∧
    { shortAlu with shift := zeroShift }.shift = { type := .nul, amount := .literal 0 } ∧
    { regAlu with shift := zeroShift }.shift = { type := .nul, amount := .literal 0 } := by decide

theorem witness_UndocumentedOpcodes :
    condHolds immAlu.cond sup.flags = true ∧ immAlu.sel ≠ .reserved ∧ { immAlu with sel := .noUpdate }.sel = .noUpdate ∧
    shortAlu.shift.type ≠ .reserved ∧ regAlu.shift.type ≠ .reserved ∧
    { sup with params := { Params.default with undocOps := .test } }.params.undocOps = .test := by decide

theorem witness_NoopAndShifts :
    sup.regs.sr.getLsbD 13 = false ∧
    (let f : ShiftOne := { reg := .r1, shift := regShift, cond := .al }
     condHolds f.cond sup.flags = true ∧ f.shift.type ≠ .reserved ∧ sup.writeForbidden f.reg = false) ∧
    (let f : ShiftReg := { r1 := .r1, r2 := .r2, r3 := .r3, shift := regShift, cond := .al }
     condHolds f.cond sup.flags = true ∧ f.shift.type ≠ .reserved ∧ sup.writeForbidden f.r1 = false) := by decide

theorem witness_PrivilegedDestination :
    prot.canFault .privilegeViolation ∧ prot.protectedMode = true ∧ condHolds .al prot.flags = true ∧
    Reg.lh ∈ [Reg.lh, .ah, .sh, .ph] ∧ Reg.ph ∈ [Reg.lh, .ah, .sh, .ph] ∧ StatusSel.fromAlu ≠ .reserved ∧
    regShift.type ≠ .reserved ∧ zeroShift = { type := .nul, amount := .literal 0 } :=
  ⟨canFault_of _ _ rfl, by decide⟩

theorem witness_ReservedFieldsStop :
    condHolds .al sup.flags = true ∧ { immAlu with sel := .reserved }.sel = .reserved ∧ regShift.type ≠ .reserved ∧
    shortAlu.sel ≠ .reserved ∧ ({ type := .reserved, amount := .literal 0 } : Shift).type = .reserved ∧
    ({ type := .nul, amount := .literal 1 } : Shift) ≠ { type := .nul, amount := .literal 0 } := by decide

/-- Offset -1 from a low register of 0 wraps without SR.A and traps with it; 0xFFFE + 1 does not leave the segment. -/
theorem witness_StoreCompletes :
    sup.mem.wf = true ∧ condHolds immMem.cond sup.flags = true ∧
    sup.offsetTraps (sup.advance.regs.get (pairLow immMem.pair)) immMem.imm = false ∧
    sup.busError (sup.advance.effectiveAddr immMem.pair immMem.imm) .store = false ∧
    (withSr 0x4000).offsetTraps 0xFFFE 1 = false ∧ (withSr 0x4000).offsetTraps 0x0000 0xFFFF = true ∧
    regMem.shift.type ≠ .reserved ∧
    sup.offsetTraps (sup.advance.regs.get (pairLow regMem.pair)) (sup.advance.readReg regMem.r2) = false ∧
    sup.busError (sup.advance.effectiveAddr regMem.pair (sup.advance.readReg regMem.r2)) .store = false := by decide

theorem witness_StorePreDecCompletes :
    sup.mem.wf = true ∧ condHolds immMem.cond sup.flags = true ∧
    sup.offsetTraps (sup.advance.regs.get .ll) (-1) = false ∧
    sup.offsetTraps (sup.advance.regs.get .ll - 1) immMem.imm = false ∧
    sup.busError (sup.advance.preDecAddr .l immMem.imm) .store = false ∧ regMem.shift.type ≠ .reserved ∧
    sup.offsetTraps (sup.advance.regs.get .ll - 1) (sup.advance.readReg regMem.r2) = false ∧
    sup.busError (sup.advance.preDecAddr .l (sup.advance.readReg regMem.r2)) .store = false := by decide

theorem witness_LoadCompletes :
    condHolds immMem.cond sup.flags = true ∧ sup.writeForbidden immMem.reg = false ∧
    sup.offsetTraps (sup.advance.regs.get (pairLow immMem.pair)) immMem.imm = false ∧
    sup.busError (sup.advance.effectiveAddr immMem.pair immMem.imm) .load = false ∧ regMem.shift.type ≠ .reserved ∧
    sup.writeForbidden regMem.r1 = false ∧
    sup.offsetTraps (sup.advance.regs.get (pairLow regMem.pair)) (sup.advance.readReg regMem.r2) = false ∧
    sup.busError (sup.advance.effectiveAddr regMem.pair (sup.advance.readReg regMem.r2)) .load = false := by decide

/-- For the STOR and LOAD statements: an address in a device range that the bus accepts. -/
theorem witness_deviceAccess :
    board.mem.wf = true ∧ board.isDevice 0x021000 = true ∧ board.isDevice 0x030000 = false ∧
    board.busError 0x021000 .store = false ∧
    ((board.setReg .ah 0x0002).setReg .al 0x1001).advance.effectiveAddr .a 0xFFFF = 0x021000 ∧
    board.deviceWords = [] ++ { addr := 0x021000, value := 0x1234 } :: [] := by decide

theorem witness_LoadPostIncCompletes :
    condHolds immMem.cond sup.flags = true ∧ sup.writeForbidden immMem.reg = false ∧
    sup.offsetTraps (sup.advance.regs.get .ll) immMem.imm = false ∧ sup.offsetTraps (sup.advance.regs.get .ll) 1 = false ∧
    sup.busError (sup.advance.effectiveAddr .l immMem.imm) .load = false ∧ regMem.shift.type ≠ .reserved ∧
    sup.writeForbidden regMem.r1 = false ∧
    sup.offsetTraps (sup.advance.regs.get .ll) (sup.advance.readReg regMem.r2) = false ∧
    sup.busError (sup.advance.effectiveAddr .l (sup.advance.readReg regMem.r2)) .load = false := by decide

/-- l at 0xFFFF and p at 0xFFFE after fetch with SR.A: an offset of 1 leaves the segment of l, one of 2 that of p, the
increment that of l; the decrement leaves that of a, at 0. -/
theorem witness_SegmentOverflowFault :
    trapping.canFault .segmentOverflow ∧ trapping.protectedMode = false ∧ condHolds .al trapping.flags = true ∧
    trapping.writeForbidden .pl = false ∧ (withSr 0x4100).writeForbidden .r1 = false ∧
    (withSr 0x4100).offsetTraps ((withSr 0x4100).advance.regs.get (pairLow .a)) 0xFFFF = true ∧
    trapping.offsetTraps (trapping.advance.regs.get (pairLow .l)) 1 = true ∧
    trapping.offsetTraps (trapping.advance.regs.get (pairLow .p)) 2 = true ∧
    trapping.offsetTraps (trapping.advance.regs.get (pairLow .a)) (-1) = true ∧
    trapping.offsetTraps (trapping.advance.regs.get (pairLow .l) - 1) 2 = true ∧ regMem.shift.type ≠ .reserved ∧
    regMem.shift = { type := .nul, amount := .literal 0 } ∧ Reg.ah ∈ [Reg.lh, .ah, .sh, .ph] ∧
    (trapping.setReg .r2 1).offsetTraps ((trapping.setReg .r2 1).advance.regs.get (pairLow .l))
      ((trapping.setReg .r2 1).advance.readReg .r2) = true :=
  ⟨canFault_of _ _ rfl, by decide⟩

theorem witness_DataBusFault :
    (let s := busFails .store
     s.canFault .bus ∧ condHolds .al s.flags = true ∧ s.offsetTraps (s.advance.regs.get (pairLow .l)) 0xFFFF = false ∧
       s.busError (s.advance.effectiveAddr .l 0xFFFF) .store = true ∧ s.offsetTraps (s.advance.regs.get (pairLow .l)) (-1) = false ∧
       s.offsetTraps (s.advance.regs.get (pairLow .l) - 1) 0xFFFF = false ∧
       s.busError (s.advance.preDecAddr .l 0xFFFF) .store = true) ∧
    (let s := busFails .load
     s.canFault .bus ∧ s.offsetTraps (s.advance.regs.get (pairLow .l)) (s.advance.readReg .r2) = false ∧
       s.writeForbidden .r1 = false ∧ s.busError (s.advance.effectiveAddr .l (s.advance.readReg .r2)) .load = true ∧
       s.offsetTraps (s.advance.regs.get (pairLow .l)) 1 = false ∧ regMem.shift.type ≠ .reserved) :=
  ⟨⟨⟨rfl, rfl⟩, by decide⟩, ⟨⟨rfl, rfl⟩, by decide⟩⟩

theorem witness_LoadEffectiveAddress :
    sup.protectedMode = false ∧ condHolds .al sup.flags = true ∧ Reg.sh = pairHigh .s ∧ Reg.ph = pairHigh .p ∧
    sup.offsetTraps (sup.advance.regs.get (pairLow .l)) 0xFFFF = false ∧
    (trapping.protectedMode = false ∧ trapping.offsetTraps (trapping.advance.regs.get (pairLow .p)) 1 = false) ∧
    regMem.shift = { type := .nul, amount := .literal 0 } ∧
    sup.offsetTraps (sup.advance.regs.get (pairLow .l)) (sup.advance.readReg .r2) = false := by decide

theorem witness_Branch :
    condHolds .al prot.flags = true ∧ { immMem with pair := .p }.pair = .p ∧
    prot.offsetTraps (prot.regs.pl + 2) 0xFFFF = false ∧ trapping.offsetTraps (trapping.regs.pl + 2) 1 = false ∧
    regMem.shift = { type := .nul, amount := .literal 0 } ∧
    prot.offsetTraps (prot.regs.pl + 2) (prot.advance.readReg .r2) = false := by decide

theorem witness_JumpSubroutine :
    sup.protectedMode = false ∧ condHolds .al sup.flags = true ∧
    sup.offsetTraps (sup.advance.regs.get (pairLow .l)) 0xFFFF = false ∧
    regMem.shift = { type := .nul, amount := .literal 0 } ∧
    sup.offsetTraps (sup.advance.regs.get (pairLow .l)) (sup.advance.readReg .r2) = false := by decide

theorem witness_BranchSubroutine :
    sup.protectedMode = false ∧ condHolds .al sup.flags = true ∧ { immMem with pair := .p }.pair = .p ∧
    sup.offsetTraps (sup.regs.pl + 2) 0xFFFF = false ∧ regMem.shift = { type := .nul, amount := .literal 0 } ∧
    sup.offsetTraps (sup.regs.pl + 2) (sup.advance.readReg .r2) = false := by decide

theorem witness_ControlFlowChecks :
    prot.protectedMode = true ∧ prot.canFault .privilegeViolation ∧ condHolds .al prot.flags = true ∧
    Reg.ah ∈ [Reg.lh, .ah, .sh, .ph] ∧ immMem.reg ∉ [Reg.lh, .ah, .sh, .ph] ∧ immMem.pair ≠ .p ∧
    { immMem with pair := .p }.pair = .p ∧ regMem.shift = { type := .nul, amount := .literal 0 } ∧
    regMem.r1 ∉ [Reg.lh, .ah, .sh, .ph] ∧ regMem.pair ≠ .p :=
  ⟨rfl, canFault_of _ _ rfl, by decide⟩

/-- The lowest vector of each mode. -/
theorem witness_TrapEntry :
    (condHolds (unitOp 0x60).cond sup.flags = true ∧ sup.level = 0 ∧
      (if sup.protectedMode then 0x80 else 0x60) ≤ (unitOp 0x60).par.toNat) ∧ sup.vectorReadable 0x60 ∧
    (condHolds (unitOp 0x80).cond prot.flags = true ∧ prot.level = 0 ∧
      (if prot.protectedMode then 0x80 else 0x60) ≤ (unitOp 0x80).par.toNat) ∧ prot.vectorReadable 0x80 :=
  ⟨by decide, ⟨rfl, rfl⟩, by decide, ⟨rfl, rfl⟩⟩

theorem witness_CallForms :
    sup.protectedMode = false ∧ regAlu.shift.type ≠ .reserved ∧ condHolds .al sup.flags = true ∧
    { immAlu with imm := 0x19FF }.imm.extractLsb' 8 8 = 0x19 ∧
    ((with1 .r3 0x1900).advance.readReg regAlu.r3).extractLsb' 8 8 = 0x19 ∧ (with1 .r3 0x1900).protectedMode = false ∧
    immAlu.cond = (unitOp 0x80).cond ∧ regAlu.cond = (unitOp 0x80).cond ∧
    { immAlu with imm := 0x1180 }.imm = (0x11#8 ++ (unitOp 0x80).par : Word) ∧
    (with1 .r3 0x1180).advance.readReg regAlu.r3 = (0x11#8 ++ (unitOp 0x80).par : Word) := by decide

/-- The lowest and the highest level. -/
theorem witness_ReturnFromException :
    condHolds .al sup.flags = true ∧ sup.protectedMode = false ∧
    { sup with level := 1 }.level.val = (0 : Fin 7).val + 1 ∧ { sup with level := 7 }.level.val = (6 : Fin 7).val + 1 := by
  decide

theorem witness_SoftwareReset :
    condHolds .al sup.flags = true ∧ sup.protectedMode = false ∧ sup.vectorReadable 0x00 := ⟨rfl, rfl, rfl, rfl⟩

/-- For TransferFromLink and TransferToLink: the first and the last of the seven link registers, the metadata, and the first
index past them. -/
theorem witness_TransferFromLink :
    condHolds .al sup.flags = true ∧ sup.protectedMode = false ∧
    ((unitOp 0x30).par.extractLsb' 0 4).toNat = (0 : Fin 7).val ∧ ((unitOp 0x36).par.extractLsb' 0 4).toNat = (6 : Fin 7).val ∧
    (unitOp 0x37).par.extractLsb' 0 4 = 7 ∧ 8 ≤ ((unitOp 0x38).par.extractLsb' 0 4).toNat := by decide

theorem witness_TransferToLink :
    condHolds .al sup.flags = true ∧ sup.protectedMode = false ∧
    ((unitOp 0x10).par.extractLsb' 0 4).toNat = (0 : Fin 7).val ∧ ((unitOp 0x26).par.extractLsb' 0 4).toNat = (6 : Fin 7).val ∧
    (unitOp 0x07).par.extractLsb' 0 4 = 7 ∧ 8 ≤ ((unitOp 0x0F).par.extractLsb' 0 4).toNat := by decide

/-- An absent unit and an unassigned operation; a unit the platform has; coprocessor 0; the two halves of the short form's
parameter; and a state inside a fault handler. -/
theorem witness_InvalidCalls :
    sup.canFault .invalidOpcode ∧ handling.canFault .invalidOpcode ∧ board.canFault .invalidOpcode ∧
    condHolds .al sup.flags = true ∧ regAlu.shift.type ≠ .reserved ∧ shortAlu.shift.type ≠ .reserved ∧
    ((0x2000#16).extractLsb' 12 4 ≠ 0 ∧ (0x2000#16).extractLsb' 12 4 ≠ 1 ∧
      (0x2000#16).extractLsb' 12 4 ∉ sup.params.optionalUnits) ∧
    ((0x2000#16).extractLsb' 12 4 ∈ board.params.optionalUnits ∧ board.protectedMode = false) ∧
    ((0x1E00#16).extractLsb' 12 4 = 1 ∧ sup.protectedMode = false ∧
      (0x1E00#16).extractLsb' 8 4 ∉ [0x1#4, 0x9#4, 0xA#4, 0xB#4, 0xC#4, 0xD#4]) ∧
    ((0x1700#16).extractLsb' 12 4 = 1 ∧ (0x1700#16).getLsbD 11 = false ∧
      (0x1700#16).extractLsb' 8 4 ∉ [0x1#4, 0x9#4, 0xA#4, 0xB#4, 0xC#4, 0xD#4]) ∧
    (0x0FFF#16).extractLsb' 12 4 = 0 ∧ { shortAlu with imm8 := 0x7F }.imm8.toNat < 0x80 ∧
    0x80 ≤ { shortAlu with imm8 := 0x80 }.imm8.toNat ∧ 0xF#4 ∉ sup.params.optionalUnits ∧ 0xF#4 ∈ board.params.optionalUnits :=
  ⟨canFault_of _ _ rfl, canFault_of _ _ rfl, canFault_of _ _ rfl, by decide⟩

theorem witness_CallChecks :
    prot.protectedMode = true ∧ prot.canFault .privilegeViolation ∧
    { board with regs := prot.regs }.canFault .privilegeViolation ∧ condHolds .al prot.flags = true ∧
    (unitOp 0x7F).par.toNat < 0x80 ∧ (0x1800#16).extractLsb' 12 4 = 1 ∧ (0x1800#16).getLsbD 11 = true ∧
    ((0x2F00#16).extractLsb' 12 4 ≠ 0 ∧ (0x2F00#16).extractLsb' 12 4 ∈ board.params.optionalUnits) ∧
    (0x2F00#16).getLsbD 11 = true ∧ regAlu.shift.type ≠ .reserved ∧
    (let s := { board with regs := prot.regs }
     s.protectedMode = true ∧ condHolds shortAlu.cond s.flags = true ∧ shortAlu.shift.type ≠ .reserved ∧
       0x80 ≤ shortAlu.imm8.toNat ∧ 0xF#4 ∈ s.params.optionalUnits) ∧
    sup.protectedMode = false ∧ (unitOp 0x5F).par.toNat < 0x60 ∧ { sup with level := 1 }.level ≠ 0 ∧
    (if { sup with level := 1 }.protectedMode then 0x80 else 0x60) ≤ (unitOp 0x60).par.toNat ∧ sup.level = 0 :=
  ⟨rfl, canFault_of _ _ rfl, canFault_of _ _ rfl, by decide⟩

theorem witness_TrapReturns :
    prot.Inv ∧ condHolds (unitOp 0x80).cond prot.flags = true ∧ (unitOp 0x00).cond = .al ∧ prot.level = 0 ∧
    (if prot.protectedMode then 0x80 else 0x60) ≤ (unitOp 0x80).par.toNat ∧ prot.vectorReadable 0x80 :=
  ⟨⟨rfl, rfl⟩, rfl, rfl, rfl, by decide, rfl, rfl⟩

/-- A store under the invariant: the step goes on from a state with memory listed. -/
theorem witness_InvariantKept :
    let s := (with1 .r4 0x1111).withFetchWord 32 0x413FFFA0
    s.Inv ∧ ∃ t, step s = .next t := ⟨⟨by decide, rfl⟩, _, rfl⟩

theorem witness_ResetState : Memory.wf [] = true ∧ (Memory.writeWord [] 0x000001 0x4000).wf = true := by decide

/-- An instruction that completes in protected mode, and a trap out of it. -/
theorem witness_ProtectedModeContained :
    (let s := (prot.setReg .pl 0x0100).withFetchWord 32 0x00400050
     s.protectedMode = true ∧ ∃ t, step s = .next t ∧ t.protectedMode = true) ∧
    (let s := (prot.setReg .pl 0x0100).withFetchWord 32 0x3C046000
     s.protectedMode = true ∧ ∃ t, step s = .next t ∧ t.protectedMode = false) :=
  ⟨⟨rfl, _, rfl, rfl⟩, ⟨rfl, _, rfl, rfl⟩⟩

end Sys2Proof.Tests
end

section
/-! PROOF. The service point: which latches a boundary sets, and which of the platform's inputs it takes. -/

namespace Sys2Proof.Machine

/-- Each line has a latch of its own: a write of one reads back there and nowhere else. -/
theorem Pending.get_set (p : Pending) (k j : IrqLine) (v : Bool) :
    (p.set k v).get j = if j = k then v else p.get j := by
  cases k <;> cases j <;> rfl

/-- Which lines are enabled depends on the registers only. -/
theorem State.lineEnabled_congr {s t : State} (h : t.regs = s.regs) (k : IrqLine) :
    t.lineEnabled k = s.lineEnabled k := by
  cases k <;> simp only [State.lineEnabled, h]

/-- One event changes the latches only. -/
theorem State.latchEvent_eq (s : State) (k : IrqLine) :
    s.latchEvent k = { s with pending := if s.lineEnabled k then s.pending.set k true else s.pending } := by
  unfold State.latchEvent
  split <;> rfl

/-- The latches after one event. -/
theorem State.latchEvent_get (s : State) (k j : IrqLine) :
    (s.latchEvent k).pending.get j = (s.pending.get j || (decide (j = k) && s.lineEnabled k)) := by
  rw [State.latchEvent_eq]
  cases hk : s.lineEnabled k
  · simp
  · by_cases hj : j = k <;> simp [Pending.get_set, hj]

/-- Latching a list of events changes the latches only: a latch is set when it was, or when an event of its enabled line is
in the list. -/
theorem State.foldl_latchEvent (now : List IrqLine) (s : State) :
    ∃ p, now.foldl State.latchEvent s = { s with pending := p } ∧
      ∀ j, p.get j = (s.pending.get j || (decide (j ∈ now) && s.lineEnabled j)) := by
  induction now generalizing s with
  | nil => exact ⟨s.pending, rfl, by simp⟩
  | cons k later ih =>
    obtain ⟨p, hp, hget⟩ := ih (s.latchEvent k)
    refine ⟨p, ?_, fun j => ?_⟩
    · rw [List.foldl_cons, hp, State.latchEvent_eq]
    · have hen : (s.latchEvent k).lineEnabled j = s.lineEnabled j :=
        State.lineEnabled_congr (by rw [State.latchEvent_eq]) j
      rw [hget, State.latchEvent_get, hen]
      by_cases hj : j = k
      · subst hj
        cases s.pending.get j <;> cases s.lineEnabled j <;> simp
      · simp [hj]

/-- Latching the events the platform brings. -/
theorem State.latchEvents_of_cons {s : State} {now : List IrqLine} {later : List (List IrqLine)}
    (h : s.irqEvents = now :: later) :
    ∃ p, s.latchEvents = { s with pending := p, irqEvents := later } ∧
      ∀ j, p.get j = (s.pending.get j || (decide (j ∈ now) && s.lineEnabled j)) := by
  obtain ⟨p, hp, hget⟩ := State.foldl_latchEvent now { s with irqEvents := later }
  refine ⟨p, ?_, hget⟩
  simp only [State.latchEvents, h, hp]

/-- Where the platform brings no event, nothing is latched. -/
theorem State.latchEvents_of_nil {s : State} (h : s.irqEvents = []) : s.latchEvents = s := by
  simp only [State.latchEvents, h]

/-- Taking the words the devices present. -/
theorem State.takeDeviceWords_of_cons {s : State} {now : List DeviceWord} {later : List (List DeviceWord)}
    (h : s.deviceEvents = now :: later) : s.takeDeviceWords = { s with deviceWords := now, deviceEvents := later } := by
  simp only [State.takeDeviceWords, h]

/-- Where the devices bring no words, the old ones stay. -/
theorem State.takeDeviceWords_of_nil {s : State} (h : s.deviceEvents = []) : s.takeDeviceWords = s := by
  simp only [State.takeDeviceWords, h]

/-- The latches and the events left after a boundary that brings events. -/
theorem State.atBoundary_latches {s : State} {now : List IrqLine} {later : List (List IrqLine)}
    (h : s.irqEvents = now :: later) :
    s.atBoundary.irqEvents = later ∧
      ∀ j, s.atBoundary.pending.get j = (s.pending.get j || (decide (j ∈ now) && s.lineEnabled j)) := by
  obtain ⟨w, d, htake⟩ := s.takeDeviceWords_shape
  obtain ⟨p, hp, hget⟩ :=
    State.latchEvents_of_cons (s := { s with deviceWords := w, deviceEvents := d }) h
  rw [State.atBoundary, htake, hp]
  exact ⟨rfl, hget⟩

/-- A boundary that brings no event leaves the latches. -/
theorem State.atBoundary_no_events {s : State} (h : s.irqEvents = []) :
    s.atBoundary.irqEvents = [] ∧ s.atBoundary.pending = s.pending := by
  obtain ⟨w, d, htake⟩ := s.takeDeviceWords_shape
  have hnil : ({ s with deviceWords := w, deviceEvents := d } : State).irqEvents = [] := h
  rw [State.atBoundary, htake, State.latchEvents_of_nil hnil]
  exact ⟨h, rfl⟩

/-- Latching takes nothing of what the devices bring. -/
theorem State.atBoundary_devices (s : State) :
    s.atBoundary.deviceEvents = s.takeDeviceWords.deviceEvents ∧
      s.atBoundary.deviceWords = s.takeDeviceWords.deviceWords := by
  obtain ⟨p, e, hlatch⟩ := s.takeDeviceWords.latchEvents_shape
  rw [State.atBoundary, hlatch]
  exact ⟨rfl, rfl⟩

/-- Settles O9: the clauses on the latches and on the devices' words by what the platform brings, the frame by the shape
of the state at the boundary. -/
theorem eventLatching : Obligations.EventLatching := by
  rintro s b rfl
  refine ⟨fun now later h => State.atBoundary_latches h, State.atBoundary_no_events, fun now later h => ?_, fun h => ?_, ?_⟩
  · obtain ⟨hevents, hwords⟩ := s.atBoundary_devices
    rw [hevents, hwords, State.takeDeviceWords_of_cons h]
    exact ⟨rfl, rfl⟩
  · obtain ⟨hevents, hwords⟩ := s.atBoundary_devices
    rw [hevents, hwords, State.takeDeviceWords_of_nil h]
    exact ⟨h, rfl⟩
  · obtain ⟨p, e, w, d, hshape⟩ := s.atBoundary_shape
    rw [hshape]
    exact ⟨rfl, rfl, rfl, rfl, rfl, rfl, rfl, rfl, rfl, rfl, rfl, ⟨rfl, rfl, rfl, rfl, rfl⟩, ⟨rfl, rfl, rfl, rfl, rfl⟩,
      fun k j v => s.pending.get_set k j v⟩

end Sys2Proof.Machine
end

section
/-! PROOF. What an ALU instruction without write-back leaves: the flags AF selects, and a frame. Then the twelve
undocumented opcodes. -/

namespace Sys2Proof.Machine

/-! ### Setting the flags past the instruction -/

/-- Setting the flags leaves the twelve bits above them. -/
theorem State.setFlags_control (s : State) (x : Flags) :
    (s.setFlags x).regs.sr.extractLsb' 4 12 = s.regs.sr.extractLsb' 4 12 := by
  rw [State.setFlags_regs, RegFile.set_sr, if_pos rfl, BitVec.extractLsb'_append_eq_of_le (by decide)]
  exact BitVec.extractLsb'_eq_self

/-- The flags in their places are the low four bits of the status register. -/
theorem State.flags_bits (s : State) : s.flags.bits = s.regs.sr.extractLsb' 0 4 := by
  apply BitVec.eq_of_getLsbD_eq
  intro i hi
  simp only [Flags.bits, State.flags, BitVec.getLsbD_append, BitVec.getLsbD_ofBool, BitVec.getLsbD_extractLsb']
  grind

/-- Setting the flags to what they are changes nothing. -/
theorem State.setFlags_self (s : State) : s.setFlags s.flags = s := by
  have hsr : s.regs.sr.extractLsb' 4 12 ++ s.flags.bits = s.regs.sr := by
    rw [State.flags_bits]
    exact BitVec.extractLsb'_append_extractLsb'
  rw [State.setFlags, hsr]
  rfl

/-- An instruction that only sets flags moves on past itself. -/
theorem State.movedOn_setFlags (s : State) (x : Flags) : movedOn s (s.advance.setFlags x) := by
  simp [movedOn, RegFile.set_pl]

/-- It changes the status register and the program counter only. -/
theorem State.onlyRegs_setFlags (s : State) (x : Flags) : OnlyRegs [.sr, .pl] s (s.advance.setFlags x) where
  regs r hr := by
    simp only [List.mem_cons, List.not_mem_nil, or_false, not_or] at hr
    simp [RegFile.get_set, hr]
  memory := ⟨fun _ => rfl, rfl⟩
  unit := ⟨⟨rfl, rfl, rfl, rfl, rfl, ⟨rfl, rfl, rfl, rfl, rfl, rfl⟩⟩, rfl⟩

/-- Of the status register it changes the flags only. -/
theorem State.advance_setFlags_control (s : State) (x : Flags) :
    (s.advance.setFlags x).regs.sr.extractLsb' 4 12 = s.regs.sr.extractLsb' 4 12 := by
  rw [State.setFlags_control, State.advance_regs, RegFile.set_sr]
  rfl

/-! ### The flag update -/

/-- The flag update sets the flags: those before it, the operation's, or the shifter's. -/
theorem flagUpdate_eq_setFlags (sel : StatusSel) (alu shf : Flags) (s : State) :
    ∃ x, flagUpdate sel alu shf s = s.setFlags x ∧ (sel = .noUpdate → x = s.flags) ∧ (sel = .fromAlu → x = alu) ∧
      (sel = .fromShift → x = shf) := by
  cases sel with
  | noUpdate => exact ⟨s.flags, s.setFlags_self.symm, fun _ => rfl, nofun, nofun⟩
  | fromAlu => exact ⟨alu, rfl, nofun, fun _ => rfl, nofun⟩
  | fromShift => exact ⟨shf, rfl, nofun, nofun, fun _ => rfl⟩
  | reserved => exact ⟨s.flags, s.setFlags_self.symm, nofun, nofun, nofun⟩

/-- The flags of the update, with the shifter's as `ShiftFlags` gives them. -/
theorem flagsSelected_of_eq {sel : StatusSel} {alu x : Flags} {type : ShiftType} {o : ShiftOut} {before : Flags} {s : State}
    (hkeep : sel = .noUpdate → x = before) (halu : sel = .fromAlu → x = alu)
    (hshf : sel = .fromShift → x = s.shiftFlags type o) : FlagsSelected sel alu type o before x where
  keep := hkeep
  fromAlu := halu
  fromShift h := by
    rw [hshf h]
    exact ⟨rfl, rfl, rfl, fun hasl => if_pos hasl⟩

/-! ### ALU instructions without write-back -/

/-- The end of the ALU template without write-back. -/
theorem aluFinish_tests (op : AluOp) (sel : StatusSel) (dest : Reg) (a b : Word) (type : ShiftType) (o : ShiftOut)
    (s : State) : ∃ t, aluFinish op false sel dest a b (s.shiftFlags type o) s = .next t ∧
      AluTested sel (aluOp op a b s.flags.c) type o s t := by
  obtain ⟨x, hx, hkeep, halu, hshf⟩ :=
    flagUpdate_eq_setFlags sel (aluOp op a b s.flags.c).2 (s.shiftFlags type o) s.advance
  rw [State.flags_advance] at hkeep
  obtain ⟨hregs, hmem, hunit⟩ := s.onlyRegs_setFlags x
  refine ⟨s.advance.setFlags x, congrArg Host.Outcome.next hx, ?_, s.advance_setFlags_control x, s.movedOn_setFlags x,
    hregs, hmem, hunit⟩
  rw [State.setFlags_flags]
  exact flagsSelected_of_eq hkeep halu hshf

/-- An ALU instruction of the Immediate format without write-back. -/
theorem aluImm_tests (op : AluOp) {f : ImmAlu} {s : State} (hc : condHolds f.cond s.flags = true)
    (hsel : f.sel ≠ .reserved) :
    ∃ t, aluImm op false f s = .next t ∧
      AluTested f.sel (aluOp op (s.advance.readReg f.reg) f.imm s.flags.c) .nul
        { value := s.advance.readReg f.reg, carry := s.flags.c, overflow := false } s t := by
  rw [aluImm, conditional_of_holds hc, if_neg hsel]
  exact aluFinish_tests op f.sel f.reg _ f.imm .nul _ s

/-- A shifting ALU instruction without write-back. -/
theorem aluShifted_tests (op : AluOp) {sel : StatusSel} {sh : Shift} (dest src : Reg) (b : Word) (s : State)
    (hsel : sel ≠ .reserved) (hsh : sh.type ≠ .reserved) :
    ∃ t, aluShifted op false sel sh dest src b s = .next t ∧
      AluTested sel (aluOp op (s.advance.shifted sh (s.advance.readReg src)).value b s.flags.c) sh.type
        (s.advance.shifted sh (s.advance.readReg src)) s t := by
  rw [aluShifted, if_neg hsel, if_neg hsh]
  exact aluFinish_tests op sel dest _ b sh.type _ s

/-- An ALU instruction of the Short Immediate format without write-back. -/
theorem aluShort_tests (op : AluOp) {f : ShortAlu} {s : State} (hc : condHolds f.cond s.flags = true)
    (hsel : f.sel ≠ .reserved) (hsh : f.shift.type ≠ .reserved) :
    ∃ t, aluShort op false f s = .next t ∧
      AluTested f.sel (aluOp op (s.advance.shifted f.shift (s.advance.readReg f.reg)).value (ext8 f.imm8) s.flags.c)
        f.shift.type (s.advance.shifted f.shift (s.advance.readReg f.reg)) s t := by
  rw [aluShort, conditional_of_holds hc]
  exact aluShifted_tests op f.reg f.reg (ext8 f.imm8) s hsel hsh

/-- An ALU instruction of the Register format without write-back. -/
theorem aluReg_tests (op : AluOp) {f : RegAlu} {s : State} (hc : condHolds f.cond s.flags = true)
    (hsel : f.sel ≠ .reserved) (hsh : f.shift.type ≠ .reserved) :
    ∃ t, aluReg op false f s = .next t ∧
      AluTested f.sel
        (aluOp op (s.advance.shifted f.shift (s.advance.readReg f.r2)).value (s.advance.readReg f.r3) s.flags.c)
        f.shift.type (s.advance.shifted f.shift (s.advance.readReg f.r2)) s t := by
  rw [aluReg, conditional_of_holds hc]
  exact aluShifted_tests op f.r1 f.r2 (s.advance.readReg f.r3) s hsel hsh

/-! ### The undocumented opcodes -/

/-- The result is that of an instruction that moves on and changes nothing but flags, and no flag when AF is 00. -/
def RunsOnFlags (sel : StatusSel) (s : State) (r : Result) : Prop :=
  ∃ t, r = .next t ∧ movedOn s t ∧ OnlyRegs [.sr, .pl] s t ∧
    t.regs.sr.extractLsb' 4 12 = s.regs.sr.extractLsb' 4 12 ∧ (sel = .noUpdate → t.flags = s.flags)

/-- A completed test instruction is such an instruction. -/
theorem RunsOnFlags.of_tested {sel : StatusSel} {r : Result} {v : Word × Flags} {type : ShiftType} {o : ShiftOut} {s : State}
    (h : ∃ t, r = .next t ∧ AluTested sel v type o s t) : RunsOnFlags sel s r := by
  obtain ⟨t, hr, ht⟩ := h
  exact ⟨t, hr, ht.next, ⟨ht.regs, ht.memory, ht.unit⟩, ht.control, ht.flags.keep⟩

/-- So is an undocumented opcode whose results are not stated. -/
theorem undocumentedEffect_runsOnFlags {sel : StatusSel} (s : State) (hsel : sel ≠ .reserved) :
    RunsOnFlags sel s (undocumentedEffect sel s) := by
  have runs : ∀ x, (sel = .noUpdate → x = s.flags) → RunsOnFlags sel s (.next (s.advance.setFlags x)) := fun x hx =>
    ⟨_, rfl, s.movedOn_setFlags x, s.onlyRegs_setFlags x, s.advance_setFlags_control x,
      fun h => (State.setFlags_flags _ x).trans (hx h)⟩
  rw [undocumentedEffect, if_neg hsel]
  split
  case isTrue =>
    have hself : s.advance.setFlags s.flags = s.advance := by rw [← State.flags_advance, State.setFlags_self]
    exact hself ▸ runs s.flags fun _ => rfl
  case isFalse h => exact runs _ fun hno => absurd hno h

/-- The Immediate format, under either setting of `UNDOC_OPS`. -/
theorem undocumentedImm_runsOnFlags (op : AluOp) {f : ImmAlu} {s : State} (hc : condHolds f.cond s.flags = true)
    (hsel : f.sel ≠ .reserved) : RunsOnFlags f.sel s (undocumentedImm op f s) := by
  obtain ⟨-, h⟩ | ⟨-, h⟩ := undocumentedImm_cases (op := op) (f := f) (s := s)
  · exact h ▸ .of_tested (aluImm_tests op hc hsel)
  · rw [h, conditional_of_holds hc]
    exact undocumentedEffect_runsOnFlags s hsel

/-- The Short Immediate format. -/
theorem undocumentedShort_runsOnFlags (op : AluOp) {f : ShortAlu} {s : State} (hc : condHolds f.cond s.flags = true)
    (hsel : f.sel ≠ .reserved) (hsh : f.shift.type ≠ .reserved) : RunsOnFlags f.sel s (undocumentedShort op f s) := by
  obtain ⟨-, h⟩ | ⟨-, h⟩ := undocumentedShort_cases (op := op) (f := f) (s := s)
  · exact h ▸ .of_tested (aluShort_tests op hc hsel hsh)
  · rw [h, conditional_of_holds hc, withShiftType_of_ne hsh]
    exact undocumentedEffect_runsOnFlags s hsel

/-- The Register format. -/
theorem undocumentedReg_runsOnFlags (op : AluOp) {f : RegAlu} {s : State} (hc : condHolds f.cond s.flags = true)
    (hsel : f.sel ≠ .reserved) (hsh : f.shift.type ≠ .reserved) : RunsOnFlags f.sel s (undocumentedReg op f s) := by
  obtain ⟨-, h⟩ | ⟨-, h⟩ := undocumentedReg_cases (op := op) (f := f) (s := s)
  · exact h ▸ .of_tested (aluReg_tests op hc hsel hsh)
  · rw [h, conditional_of_holds hc, withShiftType_of_ne hsh]
    exact undocumentedEffect_runsOnFlags s hsel

/-- Under `test` an undocumented opcode is the ALU instruction without write-back: the Immediate format. -/
theorem undocumentedImm_of_test {s : State} (h : s.params.undocOps = .test) (op : AluOp) (f : ImmAlu) :
    undocumentedImm op f s = aluImm op false f s := by rw [undocumentedImm, h]

/-- The Short Immediate format. -/
theorem undocumentedShort_of_test {s : State} (h : s.params.undocOps = .test) (op : AluOp) (f : ShortAlu) :
    undocumentedShort op f s = aluShort op false f s := by rw [undocumentedShort, h]

/-- The Register format. -/
theorem undocumentedReg_of_test {s : State} (h : s.params.undocOps = .test) (op : AluOp) (f : RegAlu) :
    undocumentedReg op f s = aluReg op false f s := by rw [undocumentedReg, h]

/-- Settles O32: each opcode is its format's undocumented form of one ALU operation, and what that form leaves is proved
for every operation. -/
theorem undocumentedOpcodes : Obligations.UndocumentedOpcodes := by
  intro s
  refine ⟨fun f hc hsel => ?_, fun f hc hsel hsh => ?_, fun f hc hsel hsh => ?_, fun htest => ⟨?_, ?_, ?_⟩⟩
  · have runs := fun op => undocumentedImm_runsOnFlags op hc hsel
    exact ⟨runs .add, runs .adc, runs .sbc, runs .orr⟩
  · have runs := fun op => undocumentedShort_runsOnFlags op hc hsel hsh
    exact ⟨runs .add, runs .adc, runs .sbc, runs .orr⟩
  · have runs := fun op => undocumentedReg_runsOnFlags op hc hsel hsh
    exact ⟨runs .add, runs .adc, runs .sbc, runs .orr⟩
  · rintro f a hc hsel rfl
    have tests := fun op => undocumentedImm_of_test htest op f ▸ aluImm_tests op hc hsel
    exact ⟨tests .add, tests .adc, tests .sbc, tests .orr⟩
  · rintro f o b hc hsel hsh rfl rfl
    have tests := fun op => undocumentedShort_of_test htest op f ▸ aluShort_tests op hc hsel hsh
    exact ⟨tests .add, tests .adc, tests .sbc, tests .orr⟩
  · rintro f o b hc hsel hsh rfl rfl
    have tests := fun op => undocumentedReg_of_test htest op f ▸ aluReg_tests op hc hsel hsh
    exact ⟨tests .add, tests .adc, tests .sbc, tests .orr⟩

end Sys2Proof.Machine
end

section
/-! PROOF. What taking a fault leaves, and the calls of coprocessors that are absent, optional or without operations. -/

namespace Sys2Proof.Machine

/-! ### Taking a fault -/

/-- What an entry is made from does not include the metadata and the cause a fault records first. -/
theorem Entered.of_recorded {vector : BitVec 8} {l : Fin 8} {k : Fin 7} {ret : BitVec 32} {m : FaultMeta} {c : Word}
    {s t : State} (h : Entered vector l k ret { s with faultMeta := m, cause := c } t) : Entered vector l k ret s t where
  target := h.target
  level := h.level
  waiting := h.waiting
  saved := h.saved
  others := h.others
  supervisor := h.supervisor
  traceOff := h.traceOff
  status := h.status
  regs := h.regs
  memory := ⟨h.memory.bytes, h.memory.devices⟩
  inputs := ⟨h.inputs.irqEvents, h.inputs.busErrors, h.inputs.params, h.inputs.deviceWords, h.inputs.deviceEvents,
    h.inputs.freeCount⟩

/-- An entry with metadata and cause recorded completes when the vector can be read. -/
theorem enterException_recorded {s : State} {v : BitVec 8} (l : Fin 8) (k : Fin 7) (ret : BitVec 32) (m : FaultMeta)
    (c : Word) (h : s.vectorReadable v) :
    ∃ t, enterException v l k ret { s with faultMeta := m, cause := c } = .next t ∧ Entered v l k ret s t ∧
      t.pending = s.pending ∧ t.cause = c ∧ t.faultMeta = m := by
  obtain ⟨t, ht⟩ := enterException_completes (s := { s with faultMeta := m, cause := c }) l k ret h
  obtain ⟨hentered, hpending, hcause, hmeta, -, -⟩ := entered_of_enterException ht
  exact ⟨t, ht, hentered.of_recorded, hpending, hcause, hmeta⟩

/-- The fields of a metadata word: bits 15 to 8, the code, the double-fault flag, the phase. -/
theorem metadataWord_fields (upper : BitVec 8) (code : BitVec 4) (double : BitVec 1) (phase : BitVec 3) :
    (upper ++ code ++ double ++ phase : Word).extractLsb' 0 3 = phase ∧
    (upper ++ code ++ double ++ phase : Word).getLsbD 3 = double.getLsbD 0 ∧
    (upper ++ code ++ double ++ phase : Word).extractLsb' 4 4 = code ∧
    (upper ++ code ++ double ++ phase : Word).extractLsb' 8 8 = upper := by
  refine ⟨?phase, ?double, ?code, ?upper⟩
  case phase => exact (BitVec.extractLsb'_append_eq_of_add_le (by decide)).trans BitVec.extractLsb'_eq_self
  case double =>
    rw [BitVec.getLsbD_append, BitVec.getLsbD_append]
    rfl
  case code =>
    rw [BitVec.extractLsb'_append_eq_of_le (by decide), BitVec.extractLsb'_append_eq_of_le (by decide),
      BitVec.extractLsb'_append_eq_of_add_le (by decide)]
    exact BitVec.extractLsb'_eq_self
  case upper =>
    rw [BitVec.extractLsb'_append_eq_of_le (by decide), BitVec.extractLsb'_append_eq_of_le (by decide),
      BitVec.extractLsb'_append_eq_of_le (by decide)]
    exact BitVec.extractLsb'_eq_self

/-- The fields of the metadata word of a first fault. -/
theorem faultWord_fields (code : BitVec 4) (phase : BitVec 3) :
    (faultWord code phase).extractLsb' 0 3 = phase ∧ (faultWord code phase).getLsbD 3 = false ∧
    (faultWord code phase).extractLsb' 4 4 = code ∧ (faultWord code phase).extractLsb' 8 8 = 0 :=
  metadataWord_fields 0#8 code 0#1 phase

/-- The fields of the metadata word of a double fault. -/
theorem doubleFaultWord_fields (old : Word) (code : BitVec 4) (phase : BitVec 3) :
    (doubleFaultWord old code phase).extractLsb' 0 3 = phase ∧ (doubleFaultWord old code phase).getLsbD 3 = true ∧
    (doubleFaultWord old code phase).extractLsb' 4 4 = code ∧
    (doubleFaultWord old code phase).extractLsb' 8 4 = old.extractLsb' 4 4 ∧
    (doubleFaultWord old code phase).extractLsb' 12 4 = 0 := by
  obtain ⟨hphase, hdouble, hcode, -⟩ := metadataWord_fields (0#4 ++ old.extractLsb' 4 4) code 1#1 phase
  refine ⟨hphase, hdouble, hcode, ?original, ?zero⟩
  case original =>
    rw [doubleFaultWord, BitVec.extractLsb'_append_eq_of_le (by decide), BitVec.extractLsb'_append_eq_of_le (by decide),
      BitVec.extractLsb'_append_eq_of_le (by decide), BitVec.extractLsb'_append_eq_of_add_le (by decide)]
    exact BitVec.extractLsb'_eq_self
  case zero =>
    rw [doubleFaultWord, BitVec.extractLsb'_append_eq_of_le (by decide), BitVec.extractLsb'_append_eq_of_le (by decide),
      BitVec.extractLsb'_append_eq_of_le (by decide), BitVec.extractLsb'_append_eq_of_le (by decide)]
    exact BitVec.extractLsb'_eq_self

/-- The bus address in the metadata is the 24-bit address. -/
theorem toNat_zeroExtend_addr (a : Addr) : (a.zeroExtend 32).toNat = a.toNat :=
  BitVec.toNat_setWidth_of_le (by decide)

/-- A fault outside a fault handler, when its vector can be read. -/
theorem takeFault_first {f : FaultKind} (phase : BitVec 3) (bus : Addr) (ret : BitVec 32) {s : State} (hl : s.level ≠ 7)
    (hv : s.vectorReadable (vectorOf f)) :
    ∃ t, takeFault f phase bus ret s = .next t ∧ FaultTaken f phase bus ret s t := by
  obtain ⟨t, ht, hentered, hpending, hcause, hmeta⟩ := enterException_recorded 7 6 ret
    { addr := bus.zeroExtend 32, sr := faultWord (s.faultCode f) phase } (faultCause (vectorOf f)) hv
  obtain ⟨hphase, hsingle, hcode, hupper⟩ := faultWord_fields (s.faultCode f) phase
  refine ⟨t, (if_neg hl).trans ht, ?_⟩
  constructor
  case entry => exact hentered
  case cause => exact hcause
  case pending => exact hpending
  case busAddress => rw [hmeta]; exact toNat_zeroExtend_addr bus
  all_goals rw [hmeta]; assumption

/-- A fault inside a fault handler, when the vector of the Double Fault can be read. -/
theorem takeFault_double (f : FaultKind) (phase : BitVec 3) (bus : Addr) (ret : BitVec 32) {s : State} (hl : s.level = 7)
    (hv : s.vectorReadable 0x06) :
    ∃ t, takeFault f phase bus ret s = .next t ∧ DoubleFaultTaken phase bus ret s t := by
  obtain ⟨t, ht, hentered, hpending, hcause, hmeta⟩ := enterException_recorded 7 6 ret
    { addr := bus.zeroExtend 32, sr := doubleFaultWord s.faultMeta.sr (s.faultCode .doubleFault) phase }
    (faultCause (vectorOf .doubleFault)) hv
  obtain ⟨hphase, hdouble, hcode, horiginal, hupper⟩ :=
    doubleFaultWord_fields s.faultMeta.sr (s.faultCode .doubleFault) phase
  refine ⟨t, (if_pos hl).trans ht, ?_⟩
  constructor
  case entry => exact hentered
  case cause => exact hcause
  case pending => exact hpending
  case busAddress => rw [hmeta]; exact toNat_zeroExtend_addr bus
  all_goals rw [hmeta]; assumption

/-- A fault of an instruction is taken at it when the fault can be taken. -/
theorem faults_raiseFault {f : FaultKind} (phase : BitVec 3) (bus : Addr) {s : State} (h : s.canFault f) :
    faults f phase bus s (raiseFault f phase bus s) := by
  unfold State.canFault at h
  by_cases hl : s.level = 7
  · rw [if_pos hl] at h
    obtain ⟨t, ht, hd⟩ := takeFault_double f phase bus s.pc hl h
    exact ⟨t, ht, fun hne => absurd hl hne, fun _ => hd⟩
  · rw [if_neg hl] at h
    obtain ⟨t, ht, hf⟩ := takeFault_first phase bus s.pc hl h
    exact ⟨t, ht, fun _ => hf, fun he => absurd he hl⟩

/-! ### The short immediate -/

/-- The extension is with zeros or with ones. -/
theorem ext8_zeros_or_ones (v : BitVec 8) : ext8 v = 0x00#8 ++ v ∨ ext8 v = 0xFF#8 ++ v := by
  unfold ext8
  split
  · exact .inr rfl
  · exact .inl rfl

/-- Below 0x80 it is with zeros. -/
theorem ext8_of_lt {v : BitVec 8} (h : v.toNat < 0x80) : ext8 v = 0x00#8 ++ v := by
  have hbit : v.getLsbD 7 = false := Nat.testBit_lt_two_pow h
  rw [ext8, hbit, Bool.false_and, if_neg Bool.false_ne_true]

/-! ### Calls that have no operation -/

/-- The call word names a unit the platform does not have, or an operation the exception unit does not have, and privilege
does not stop it first (44_coprocessor.md R294, R301). -/
def State.InvalidCall (s : State) (w : Word) : Prop :=
  (w.extractLsb' 12 4 ≠ 0 ∧ w.extractLsb' 12 4 ≠ 1 ∧ w.extractLsb' 12 4 ∉ s.params.optionalUnits) ∨
    (w.extractLsb' 12 4 = 1 ∧ (s.protectedMode = false ∨ w.getLsbD 11 = false) ∧
      w.extractLsb' 8 4 ∉ [0x1#4, 0x9#4, 0xA#4, 0xB#4, 0xC#4, 0xD#4])

/-- The call word names an optional unit the platform has, and privilege does not stop it first (00_scope.md R4). -/
def State.OptionalCall (s : State) (w : Word) : Prop :=
  w.extractLsb' 12 4 ≠ 0 ∧ w.extractLsb' 12 4 ≠ 1 ∧ w.extractLsb' 12 4 ∈ s.params.optionalUnits ∧
    (s.protectedMode = false ∨ w.getLsbD 11 = false)

/-- Bit 3 of the operation is bit 11 of the call word. -/
theorem operation_getLsbD_three (w : Word) : (w.extractLsb' 8 4).getLsbD 3 = w.getLsbD 11 := by
  rw [BitVec.getLsbD_extractLsb', decide_eq_true (by decide), Bool.true_and]

/-- The check of privilege passes in supervisor mode, and in protected mode for the operations 0x0 to 0x7. -/
theorem call_permitted {s : State} {w : Word} (h : s.protectedMode = false ∨ w.getLsbD 11 = false) :
    ((w.extractLsb' 8 4).getLsbD 3 && s.protectedMode) = false := by
  rw [operation_getLsbD_three]
  rcases h with h | h
  · rw [h, Bool.and_false]
  · rw [h, Bool.false_and]

/-- A unit other than the exception unit is present when the platform lists it. -/
theorem State.unitPresent_of_ne {s : State} {id : BitVec 4} (h : id ≠ 0x1#4) :
    s.unitPresent id = decide (id ∈ s.params.optionalUnits) := by
  rw [State.unitPresent, beq_eq_false_iff_ne.mpr h, Bool.false_or, List.contains_eq_mem]

/-- A call of coprocessor 0x0 stops. -/
theorem copCall_processingUnit {w : Word} {s : State} (h : w.extractLsb' 12 4 = 0x0#4) :
    copCall w s = .refused .processingUnitCall := if_pos h

/-- A call of an absent unit faults. -/
theorem copCall_absent {w : Word} {s : State} (h0 : w.extractLsb' 12 4 ≠ 0x0#4) (h1 : w.extractLsb' 12 4 ≠ 0x1#4)
    (hu : w.extractLsb' 12 4 ∉ s.params.optionalUnits) : copCall w s = raiseFault .invalidOpcode 2 0 s := by
  have habsent : s.unitPresent (w.extractLsb' 12 4) = false := by
    rw [State.unitPresent_of_ne h1, decide_eq_false hu]
  simp only [copCall, if_neg h0, habsent, Bool.not_false, if_true]

/-- A call of an optional unit the platform has stops. -/
theorem copCall_optional {w : Word} {s : State} (h : s.OptionalCall w) : copCall w s = .refused .optionalUnitCall := by
  obtain ⟨(h0 : w.extractLsb' 12 4 ≠ 0x0#4), (h1 : w.extractLsb' 12 4 ≠ 0x1#4), hu, hpriv⟩ := h
  have hpresent : s.unitPresent (w.extractLsb' 12 4) = true := by
    rw [State.unitPresent_of_ne h1, decide_eq_true hu]
  simp only [copCall, if_neg h0, hpresent, call_permitted hpriv, Bool.not_true, Bool.false_eq_true, if_false, if_pos h1]

/-- A call of an operation the exception unit does not have faults. -/
theorem copCall_unassigned {w : Word} {s : State} (h1 : w.extractLsb' 12 4 = 0x1#4)
    (hpriv : s.protectedMode = false ∨ w.getLsbD 11 = false)
    (hop : w.extractLsb' 8 4 ∉ [0x1#4, 0x9#4, 0xA#4, 0xB#4, 0xC#4, 0xD#4]) :
    copCall w s = raiseFault .invalidOpcode 2 0 s := by
  have h0 : w.extractLsb' 12 4 ≠ 0x0#4 := by rw [h1]; decide
  have hpresent : s.unitPresent (w.extractLsb' 12 4) = true := by rw [h1]; rfl
  have hid : ¬w.extractLsb' 12 4 ≠ 0x1#4 := not_not_intro h1
  simp only [List.mem_cons, List.not_mem_nil, or_false, not_or, ← BitVec.toNat_inj] at hop
  simp only [copCall, if_neg h0, hpresent, call_permitted hpriv, Bool.not_true, Bool.false_eq_true, if_false, if_neg hid]
  split
  case h_7 => rfl
  all_goals simp_all

/-- What a call without an operation does, by its call word. -/
theorem call_without_operation {s : State} (hf : s.canFault .invalidOpcode) {w : Word} {r : Result}
    (hr : r = copCall w s) :
    (s.InvalidCall w → faults .invalidOpcode 2 0 s r) ∧ (s.OptionalCall w → r = .refused .optionalUnitCall) ∧
      (w.extractLsb' 12 4 = 0 → r = .refused .processingUnitCall) := by
  subst hr
  refine ⟨?_, copCall_optional, copCall_processingUnit⟩
  rintro (⟨h0, h1, hu⟩ | ⟨h1, hpriv, hop⟩)
  · exact copCall_absent h0 h1 hu ▸ faults_raiseFault 2 0 hf
  · exact copCall_unassigned h1 hpriv hop ▸ faults_raiseFault 2 0 hf

/-- COPI, when its condition holds. -/
theorem exec_copi {f : ImmAlu} {s : State} (hc : condHolds f.cond s.flags = true) :
    exec (.copi f) s = copCall f.imm s := conditional_of_holds hc

/-- COPR, when its condition holds and its shift type is not reserved. -/
theorem exec_copr {f : RegAlu} {s : State} (hc : condHolds f.cond s.flags = true) (hsh : f.shift.type ≠ .reserved) :
    exec (.copr f) s = copCall (s.advance.readReg f.r3) s :=
  (conditional_of_holds hc).trans (withShiftType_of_ne hsh)

/-- The short COPI, when its condition holds and its shift type is not reserved. -/
theorem exec_copiShort {f : ShortAlu} {s : State} (hc : condHolds f.cond s.flags = true) (hsh : f.shift.type ≠ .reserved) :
    exec (.copiShort f) s = copCall (ext8 f.imm8) s :=
  (conditional_of_holds hc).trans (withShiftType_of_ne hsh)

/-- A parameter extended with zeros calls coprocessor 0x0. -/
theorem copCall_zeros (v : BitVec 8) (s : State) : copCall (0x00#8 ++ v) s = .refused .processingUnitCall :=
  copCall_processingUnit (callWord_fields 0x00#8 v).1

/-- A parameter extended with ones calls coprocessor 0xF: an invalid call where the platform does not have it. -/
theorem invalidCall_ones (v : BitVec 8) {s : State} (h : 0xF#4 ∉ s.params.optionalUnits) :
    s.InvalidCall (0xFF#8 ++ v) := by
  have hunit : (0xFF#8 ++ v : Word).extractLsb' 12 4 = 0xF#4 := (callWord_fields 0xFF#8 v).1
  refine .inl ?_
  rw [hunit]
  exact ⟨by decide, by decide, h⟩

/-- In supervisor mode, the call of an optional unit where it does. -/
theorem optionalCall_ones (v : BitVec 8) {s : State} (h : 0xF#4 ∈ s.params.optionalUnits)
    (hsup : s.protectedMode = false) : s.OptionalCall (0xFF#8 ++ v) := by
  have hunit : (0xFF#8 ++ v : Word).extractLsb' 12 4 = 0xF#4 := (callWord_fields 0xFF#8 v).1
  rw [State.OptionalCall, hunit]
  exact ⟨by decide, by decide, h, .inl hsup⟩

/-- Settles O55: each call opcode is the call of its call word, whose outcome depends on the unit and the operation
named. -/
theorem invalidCalls : Obligations.InvalidCalls := by
  intro s hf
  refine ⟨fun f hc => call_without_operation hf (exec_copi hc), ?_, fun f hc hsh => ?_⟩
  · rintro f w hc hsh rfl
    exact call_without_operation hf (exec_copr hc hsh)
  · have hexec := exec_copiShort hc hsh
    have zeros : ext8 f.imm8 = 0x00#8 ++ f.imm8 → exec (.copiShort f) s = .refused .processingUnitCall := fun hext =>
      hexec.trans (hext ▸ copCall_zeros f.imm8 s)
    refine ⟨fun hlt => zeros (ext8_of_lt hlt), fun _ => ?_⟩
    obtain hext | hext := ext8_zeros_or_ones f.imm8
    · exact .inl ⟨hext, zeros hext⟩
    · rw [hext] at hexec
      obtain ⟨hinvalid, hoptional, -⟩ := call_without_operation hf hexec
      exact .inr ⟨hext, fun habsent => hinvalid (invalidCall_ones f.imm8 habsent), fun hpresent hsup =>
        hoptional (optionalCall_ones f.imm8 hpresent hsup)⟩

end Sys2Proof.Machine
end

section
/-! PROOF. The status register as it is read and as it is written, in each mode; the addresses pairs and offsets form. -/

namespace Sys2Proof.Machine

/-! ### The bytes of a masked status word -/

/-- Keeping the low byte clears the high one. -/
theorem keepLow_bytes (v : Word) :
    (v &&& 0x00FF#16).extractLsb' 8 8 = 0 ∧ (v &&& 0x00FF#16).extractLsb' 0 8 = v.extractLsb' 0 8 := by
  constructor <;> rw [BitVec.extractLsb'_and]
  · exact BitVec.and_zero
  · exact BitVec.and_allOnes

/-- Keeping the high byte clears the low one. -/
theorem keepHigh_bytes (v : Word) :
    (v &&& 0xFF00#16).extractLsb' 8 8 = v.extractLsb' 8 8 ∧ (v &&& 0xFF00#16).extractLsb' 0 8 = 0 := by
  constructor <;> rw [BitVec.extractLsb'_and]
  · exact BitVec.and_allOnes
  · exact BitVec.and_zero

/-- Bit 13 is not in the low byte. -/
theorem dropEA_low (v : Word) : (dropEA v).extractLsb' 0 8 = v.extractLsb' 0 8 := by
  rw [dropEA, BitVec.extractLsb'_and]
  exact BitVec.and_allOnes

/-! ### Reading -/

/-- The full status register: bit 13 says whether an exception is being handled, the other bits are stored
(10_state.md R38). -/
theorem State.srFull_getLsbD (s : State) (j : Nat) :
    s.srFull.getLsbD j = if j = 13 then decide (s.level ≠ 0) else s.regs.sr.getLsbD j := by
  have hmask : (0x2000#16).getLsbD j = decide (j = 13) := by
    rw [show 0x2000#16 = BitVec.twoPow 16 13 from rfl, BitVec.getLsbD_twoPow]
    simp [eq_comm]
  unfold State.srFull
  split
  next hl => rw [dropEA_bit]; by_cases hj : j = 13 <;> simp [hj, hl]
  next hl => rw [BitVec.getLsbD_or, hmask]; by_cases hj : j = 13 <;> simp [hj, hl]

/-- A plain register reads as stored. -/
theorem State.readReg_plain (s : State) {r : Reg} (h : r ≠ .sr) : s.readReg r = s.regs.get r := if_neg h

/-- In protected mode `sr` reads as the low byte of the full status register. -/
theorem State.readReg_sr_protected {s : State} (h : s.protectedMode = true) :
    s.readReg .sr = s.srFull &&& 0x00FF#16 := by
  rw [State.readReg, if_pos rfl, if_pos h]

/-- In supervisor mode it reads as the full one. -/
theorem State.readReg_sr_supervisor {s : State} (h : s.protectedMode = false) : s.readReg .sr = s.srFull := by
  rw [State.readReg, if_pos rfl, h]
  rfl

/-- The low byte of the full status register is stored. -/
theorem State.srFull_low (s : State) : s.srFull.extractLsb' 0 8 = s.regs.sr.extractLsb' 0 8 := by
  apply BitVec.eq_of_getLsbD_eq
  intro i hi
  have hne : 0 + i ≠ 13 := by omega
  rw [BitVec.getLsbD_extractLsb', BitVec.getLsbD_extractLsb', State.srFull_getLsbD, if_neg hne]

/-- Settles O13, from the bits of the full status register. -/
theorem registerRead : Obligations.RegisterRead := by
  intro s r
  have hfull : s.srFull.getLsbD 13 = decide (s.level ≠ 0) ∧ ∀ j, j ≠ 13 → s.srFull.getLsbD j = s.regs.sr.getLsbD j :=
    ⟨s.srFull_getLsbD 13, fun j hj => (s.srFull_getLsbD j).trans (if_neg hj)⟩
  refine ⟨s.readReg_plain, fun hprot => ?_, fun hsup => ?_, hfull, ⟨rfl, rfl, rfl, rfl⟩, rfl, rfl, rfl, rfl, rfl⟩
  · obtain ⟨hhigh, hlow⟩ := keepLow_bytes s.srFull
    rw [State.readReg_sr_protected hprot]
    exact ⟨hhigh, hlow.trans s.srFull_low⟩
  · rw [State.readReg_sr_supervisor hsup]
    exact hfull

/-! ### Writing -/

/-- In protected mode a write of `sr` stores the low byte (10_state.md R42). -/
theorem State.writeReg_sr_protected {s : State} (v : Word) (h : s.protectedMode = true) :
    (s.writeReg .sr v).regs.sr.extractLsb' 8 8 = s.regs.sr.extractLsb' 8 8 ∧
      (s.writeReg .sr v).regs.sr.extractLsb' 0 8 = v.extractLsb' 0 8 := by
  obtain ⟨holdHigh, holdLow⟩ := keepHigh_bytes s.regs.sr
  obtain ⟨hnewHigh, hnewLow⟩ := keepLow_bytes v
  rw [State.writeReg_eq, State.setReg_regs, RegFile.set_sr, if_pos rfl, if_pos rfl, if_pos h, BitVec.extractLsb'_or,
    BitVec.extractLsb'_or, holdHigh, holdLow, hnewHigh, hnewLow]
  exact ⟨BitVec.or_zero, BitVec.zero_or⟩

/-- In supervisor mode it stores all but bit 13. -/
theorem State.writeReg_sr_supervisor {s : State} (v : Word) (h : s.protectedMode = false) :
    (s.writeReg .sr v).regs.sr = dropEA v := by
  rw [State.writeReg_eq, State.setReg_regs, RegFile.set_sr, if_pos rfl, if_pos rfl, h]
  rfl

/-- A write of a register stores it as 10_state.md R42 says. -/
theorem State.writtenTo_writeReg (s : State) (r : Reg) (v : Word) : WrittenTo r v s (s.writeReg r v) where
  plain := s.writeReg_get_self v
  statusLow := by
    rintro rfl
    cases hp : s.protectedMode with
    | true => exact (State.writeReg_sr_protected v hp).2
    | false => rw [State.writeReg_sr_supervisor v hp, dropEA_low]
  statusHighProtected := by
    rintro rfl hp
    exact (State.writeReg_sr_protected v hp).1
  statusHigh := by
    rintro rfl hp i - -
    rw [State.writeReg_sr_supervisor v hp, dropEA_bit]

/-- It stores that register only. -/
theorem State.onlyRegs_writeReg (s : State) (r : Reg) (v : Word) : OnlyRegs [r] s (s.writeReg r v) where
  regs _ hq := s.writeReg_get_ne v (List.ne_of_not_mem_cons hq)
  memory := ⟨fun _ => by rw [State.writeReg_mem], s.writeReg_deviceWrites r v⟩
  unit := ⟨⟨s.writeReg_level r v, s.writeReg_waiting r v, s.writeReg_pending r v, s.writeReg_links r v,
    s.writeReg_faultMeta r v, ⟨s.writeReg_irqEvents r v, s.writeReg_busErrors r v, s.writeReg_params r v,
    s.writeReg_deviceWords r v, s.writeReg_deviceEvents r v, s.writeReg_freeCount r v⟩⟩, s.writeReg_cause r v⟩

/-- The high registers are those of the four pairs. -/
theorem isHighReg_iff (r : Reg) : isHighReg r = true ↔ r ∈ [Reg.lh, .ah, .sh, .ph] := by
  cases r <;> decide

/-- The forbidden writes. -/
theorem State.writeForbidden_iff (s : State) (r : Reg) :
    s.writeForbidden r = true ↔ s.protectedMode = true ∧ r ∈ [Reg.lh, .ah, .sh, .ph] := by
  rw [State.writeForbidden, Bool.and_eq_true, isHighReg_iff]

/-- Settles O14. -/
theorem registerWrite : Obligations.RegisterWrite := by
  intro s r v
  refine ⟨s.writtenTo_writeReg r v, s.onlyRegs_writeReg r v, fun hr => ?_, s.writeForbidden_iff r⟩
  rw [State.readReg_plain _ hr, State.writeReg_get_self _ _ hr]

/-! ### Addresses -/

/-- The address of a pair as a number. -/
theorem busAddr_toNat (hi lo : Word) : (busAddr hi lo).toNat = hi.toNat % 256 * 65536 + lo.toNat := by
  rw [busAddr, BitVec.toNat_append, ← Nat.shiftLeft_add_eq_or_of_lt lo.isLt, Nat.shiftLeft_eq, BitVec.extractLsb'_toNat]
  rfl

/-- Settles O36: every address is that of a pair, with an offset added to its low word modulo 2^16. -/
theorem addressFormation : Obligations.AddressFormation := by
  refine ⟨fun hi lo s pair off => ⟨busAddr_toNat hi lo, ?_, ?_⟩, ⟨rfl, rfl⟩, ⟨rfl, rfl⟩, ⟨rfl, rfl⟩, rfl, rfl⟩
  · rw [State.effectiveAddr, State.offsetLow, busAddr_toNat, BitVec.toNat_add]
  · rw [State.preDecAddr, busAddr_toNat, BitVec.toNat_add, BitVec.toNat_sub]
    have hone : (1 : Word).toNat = 1 := rfl
    omega

/-- The exact sum leaves the segment when the sum modulo 2^16 differs from it. -/
theorem offsetOverflows_iff (lo off : Word) :
    offsetOverflows lo off = true ↔ ((lo + off).toNat : Int) ≠ lo.toNat + off.toInt := by
  have hlo := lo.isLt
  have hoff := off.isLt
  rw [offsetOverflows, Bool.or_eq_true, decide_eq_true_iff, decide_eq_true_iff, BitVec.toNat_add,
    BitVec.toInt_eq_toNat_cond]
  split <;> omega

/-- Settles O37. -/
theorem offsetOverflow : Obligations.OffsetOverflow := by
  intro s lo off
  rw [State.offsetTraps, Bool.and_eq_true, offsetOverflows_iff]
  rfl

end Sys2Proof.Machine
end

section
/-! PROOF. Everything one instruction can leave, said once for all 77: it takes a fault of its own, or it makes the writes it
is allowed to make on the state past itself, or it is a trap, or it is a privileged call of the exception unit. -/

namespace Sys2Proof.Machine

/-! ### What an instruction leaves -/

/-- Reached from the state past the instruction by its own writes: of registers that are not forbidden, of the flags, of
memory. -/
inductive Wrote (s : State) : State → Prop where
  | advance : Wrote s s.advance
  | writeReg {t : State} {r : Reg} (v : Word) : Wrote s t → s.writeForbidden r = false → Wrote s (t.writeReg r v)
  | setFlags {t : State} (x : Flags) : Wrote s t → Wrote s (t.setFlags x)
  | writeWord {t : State} (a : Addr) (v : Word) : Wrote s t → Wrote s (t.writeWord a v)

/-- A privileged call of the exception unit with call word `w`: memory stays, and the status register stays or holds no bit
13. -/
structure UnitCalled (w : Word) (s t : State) : Prop where
  supervisor : s.protectedMode = false
  memory : t.mem = s.mem
  status : t.regs.sr = s.regs.sr ∨ t.regs.sr.getLsbD 13 = false
  cause : t.cause = w

/-- What an instruction that completes or faults leaves. A call word that reaches an operation does not look like the cause
of a fault (44_coprocessor.md R301). -/
inductive Leaves (s : State) : State → Prop where
  | fault {f : FaultKind} {phase : BitVec 3} {bus : Addr} {t : State} : raiseFault f phase bus s = .next t → Leaves s t
  | wrote {t : State} : Wrote s t → Leaves s t
  | trap {v : BitVec 8} {ret : BitVec 32} {w : Word} {t : State} : w.extractLsb' 8 8 ≠ 0x1E#8 →
      enterException v 1 0 ret { s.advance with cause := w } = .next t → Leaves s t
  | call {w : Word} {t : State} : w.extractLsb' 8 8 ≠ 0x1E#8 → UnitCalled w s t → Leaves s t

/-! ### Allowed writes -/

/-- Storing a plain register is writing it. -/
theorem State.setReg_eq_writeReg (s : State) {r : Reg} (v : Word) (h : r ≠ .sr) : s.setReg r v = s.writeReg r v :=
  (if_neg h).symm

/-- Storing a plain register is a write that is allowed where that of the register is. -/
theorem Wrote.setReg {s t : State} {r : Reg} (v : Word) (h : Wrote s t) (hr : s.writeForbidden r = false) (hne : r ≠ .sr) :
    Wrote s (t.setReg r v) := t.setReg_eq_writeReg v hne ▸ h.writeReg v hr

/-- The low registers may be written in either mode. -/
theorem State.writeForbidden_pairLow (s : State) (pr : Pair) : s.writeForbidden (pairLow pr) = false := by
  cases pr <;> exact Bool.and_false _

/-- In supervisor mode both registers of a pair may be written. -/
theorem Wrote.setPair {s t : State} (pr : Pair) (hi lo : Word) (h : Wrote s t) (hsup : s.protectedMode = false) :
    Wrote s (t.setPair pr hi lo) :=
  (h.setReg hi (State.writeForbidden_of_supervisor hsup) (by cases pr <;> decide)).setReg lo (s.writeForbidden_pairLow pr)
    (by cases pr <;> decide)

/-- So may `pl`, in either mode. -/
theorem Wrote.setPl {s t : State} (v : Word) (h : Wrote s t) : Wrote s (t.setReg .pl v) :=
  h.setReg v (s.writeForbidden_pairLow .p) (by decide)

/-- The flag update sets flags. -/
theorem Wrote.flagUpdate {s t : State} (sel : StatusSel) (alu shf : Flags) (h : Wrote s t) :
    Wrote s (flagUpdate sel alu shf t) := by
  obtain ⟨x, hx, -⟩ := flagUpdate_eq_setFlags sel alu shf t
  exact hx ▸ h.setFlags x

/-! ### The checks before an instruction -/

/-- With a false condition only the program counter moves. -/
theorem leaves_of_conditional {c : Cond} {s t : State} {k : Result} (h : conditional c s k = .next t)
    (hk : k = .next t → Leaves s t) : Leaves s t := by
  cases hc : condHolds c s.flags with
  | true =>
    rw [conditional_of_holds hc] at h
    exact hk h
  | false =>
    rw [conditional_of_fails hc] at h
    injection h with h
    exact h ▸ .wrote .advance

/-- The shift fields of a control instruction are zero when it goes on. -/
theorem unshifted_cases {sh : Shift} {k : Result} {t : State} (h : unshifted sh k = .next t) : k = .next t := by
  unfold unshifted at h
  split at h
  · exact h
  · cases h

/-! ### ALU instructions

Each operation leaves one of these, by the lemma that says what the operation can do. -/

theorem aluFinish_leaves {op : AluOp} {save : Bool} {sel : StatusSel} {dest : Reg} {a b : Word} {shf : Flags} {s t : State}
    (h : aluFinish op save sel dest a b shf s = .next t) : Leaves s t := by
  obtain ⟨-, -, hfault⟩ | ⟨-, hallowed, rfl⟩ | ⟨-, rfl⟩ := aluFinish_cases h
  · exact .fault hfault
  · exact .wrote (.flagUpdate _ _ _ (.writeReg _ .advance hallowed))
  · exact .wrote (.flagUpdate _ _ _ .advance)

theorem aluImm_leaves {op : AluOp} {save : Bool} {f : ImmAlu} {s t : State} (h : aluImm op save f s = .next t) :
    Leaves s t :=
  leaves_of_conditional h fun hk => by
    split at hk
    · cases hk
    · exact aluFinish_leaves hk

theorem aluShifted_leaves {op : AluOp} {save : Bool} {sel : StatusSel} {sh : Shift} {dest src : Reg} {b : Word} {s t : State}
    (h : aluShifted op save sel sh dest src b s = .next t) : Leaves s t := by
  obtain ⟨-, -, o, -, hfinish⟩ := aluShifted_cases h
  exact aluFinish_leaves hfinish

theorem aluShort_leaves {op : AluOp} {save : Bool} {f : ShortAlu} {s t : State} (h : aluShort op save f s = .next t) :
    Leaves s t := leaves_of_conditional h aluShifted_leaves

theorem aluReg_leaves {op : AluOp} {save : Bool} {f : RegAlu} {s t : State} (h : aluReg op save f s = .next t) :
    Leaves s t := leaves_of_conditional h aluShifted_leaves

theorem loadValue_leaves {dest : Reg} {v : Word} {s t : State} (h : loadValue dest v s = .next t) : Leaves s t := by
  obtain ⟨-, hfault⟩ | ⟨hallowed, rfl⟩ := loadValue_cases h
  · exact .fault hfault
  · exact .wrote (.writeReg v .advance hallowed)

/-- LOAD of a value in the formats that have shift fields. -/
theorem loadUnshifted_leaves {c : Cond} {sh : Shift} {dest : Reg} {v : Word} {s t : State}
    (h : conditional c s (if noShiftFields sh then loadValue dest v s else .refused .shiftFieldsNotZero) = .next t) :
    Leaves s t :=
  leaves_of_conditional h fun hk => by
    split at hk
    · exact loadValue_leaves hk
    · cases hk

theorem undocumentedEffect_leaves {sel : StatusSel} {s t : State} (h : undocumentedEffect sel s = .next t) : Leaves s t := by
  obtain ⟨-, rfl | ⟨x, rfl⟩⟩ := undocumentedEffect_cases h
  · exact .wrote .advance
  · exact .wrote (.setFlags x .advance)

theorem undocumentedImm_leaves {op : AluOp} {f : ImmAlu} {s t : State} (h : undocumentedImm op f s = .next t) :
    Leaves s t := by
  obtain ⟨-, heq⟩ | ⟨-, heq⟩ := undocumentedImm_cases (op := op) (f := f) (s := s) <;> rw [heq] at h
  · exact aluImm_leaves h
  · exact leaves_of_conditional h undocumentedEffect_leaves

theorem undocumentedShort_leaves {op : AluOp} {f : ShortAlu} {s t : State} (h : undocumentedShort op f s = .next t) :
    Leaves s t := by
  obtain ⟨-, heq⟩ | ⟨-, heq⟩ := undocumentedShort_cases (op := op) (f := f) (s := s) <;> rw [heq] at h
  · exact aluShort_leaves h
  · exact leaves_of_conditional h fun hk => undocumentedEffect_leaves (withShiftType_cases hk).2

theorem undocumentedReg_leaves {op : AluOp} {f : RegAlu} {s t : State} (h : undocumentedReg op f s = .next t) :
    Leaves s t := by
  obtain ⟨-, heq⟩ | ⟨-, heq⟩ := undocumentedReg_cases (op := op) (f := f) (s := s) <;> rw [heq] at h
  · exact aluReg_leaves h
  · exact leaves_of_conditional h fun hk => undocumentedEffect_leaves (withShiftType_cases hk).2

/-! ### Memory access -/

theorem storeWord_leaves {pr : Pair} {off data : Word} {s t : State} (h : storeWord pr off data s = .next t) :
    Leaves s t := by
  obtain hfault | hfault | rfl := storeWord_cases h
  · exact .fault hfault
  · exact .fault hfault
  · exact .wrote (.writeWord _ data .advance)

theorem storePreDec_leaves {pr : Pair} {off data : Word} {s t : State} (h : storePreDec pr off data s = .next t) :
    Leaves s t := by
  obtain hfault | hfault | rfl := storePreDec_cases h
  · exact .fault hfault
  · exact .fault hfault
  · exact .wrote (.setReg _ (.writeWord _ data .advance) (s.writeForbidden_pairLow pr) (by cases pr <;> decide))

theorem loadWord_leaves {dest : Reg} {pr : Pair} {off : Word} {g : Word → Word} {s t : State}
    (h : loadWord dest pr off g s = .next t) : Leaves s t := by
  obtain hfault | hfault | hfault | ⟨hallowed, rfl⟩ := loadWord_cases h
  · exact .fault hfault
  · exact .fault hfault
  · exact .fault hfault
  · exact .wrote (.writeReg _ .advance hallowed)

theorem loadPostInc_leaves {dest : Reg} {pr : Pair} {off : Word} {g : Word → Word} {s t : State}
    (h : loadPostInc dest pr off g s = .next t) : Leaves s t := by
  obtain hfault | hfault | hfault | ⟨hallowed, lo, rfl, -⟩ := loadPostInc_cases h
  · exact .fault hfault
  · exact .fault hfault
  · exact .fault hfault
  · exact .wrote (.setReg lo (.writeReg _ .advance hallowed) (s.writeForbidden_pairLow pr) (by cases pr <;> decide))

/-! ### Control flow -/

theorem ldeaInto_leaves {dst src : Pair} {off : Word} {s t : State} (h : ldeaInto dst src off s = .next t) :
    Leaves s t := by
  obtain hfault | hfault | ⟨hsup, rfl⟩ := ldeaInto_cases h
  · exact .fault hfault
  · exact .fault hfault
  · exact .wrote (.setPair dst _ _ .advance hsup)

theorem ldea_leaves {dest : Reg} {src : Pair} {off : Word} {s t : State} (h : ldea dest src off s = .next t) :
    Leaves s t := by
  unfold ldea at h
  split at h
  · cases h
  · exact ldeaInto_leaves h

theorem branch_leaves {pr : Pair} {off : Word} {s t : State} (h : branch pr off s = .next t) : Leaves s t := by
  obtain hfault | rfl := branch_cases h
  · exact .fault hfault
  · exact .wrote (.setPl _ .advance)

theorem jumpSubroutine_leaves {src : Pair} {off : Word} {s t : State} (h : jumpSubroutine src off s = .next t) :
    Leaves s t := by
  obtain hfault | hfault | ⟨hsup, rfl⟩ := jumpSubroutine_cases h
  · exact .fault hfault
  · exact .fault hfault
  · exact .wrote (.setPair .p _ _ (.setPair .l _ _ .advance hsup) hsup)

theorem branchSubroutine_leaves {pr : Pair} {off : Word} {s t : State} (h : branchSubroutine pr off s = .next t) :
    Leaves s t := by
  obtain hfault | ⟨hsup, rfl⟩ := branchSubroutine_cases h
  · exact .fault hfault
  · exact .wrote (.setPl _ (.setPair .l _ _ .advance hsup))

/-! ### Calls -/

/-- Writing the address half of a link register changes the link registers or the fault metadata. -/
theorem State.setLinkAddr_shape (s : State) (n : BitVec 4) (a : BitVec 32) :
    ∃ l m, s.setLinkAddr n a = { s with links := l, faultMeta := m } := by
  unfold State.setLinkAddr
  split_ifs
  · exact ⟨_, _, rfl⟩
  · exact ⟨_, _, rfl⟩
  · exact ⟨s.links, s.faultMeta, rfl⟩

/-- So does writing the status half. -/
theorem State.setLinkSr_shape (s : State) (n : BitVec 4) (v : Word) :
    ∃ l m, s.setLinkSr n v = { s with links := l, faultMeta := m } := by
  unfold State.setLinkSr
  split_ifs
  · exact ⟨_, _, rfl⟩
  · exact ⟨_, _, rfl⟩
  · exact ⟨s.links, s.faultMeta, rfl⟩

/-- A transfer into a link register changes the link registers or the fault metadata. -/
theorem callEttr_shape {par : BitVec 8} {u t : State} (h : callEttr par u = .next t) :
    ∃ l m, t = { u with links := l, faultMeta := m } := by
  obtain ⟨-, v, rfl, rfl⟩ := callEttr_cases h
  obtain ⟨l, m, haddr⟩ := u.setLinkAddr_shape (linkIndex par) (u.regs.ah ++ u.regs.al)
  rw [haddr]
  split_ifs
  · exact State.setLinkSr_shape _ _ _
  · exact State.setLinkSr_shape _ _ _
  · exact ⟨l, m, rfl⟩
  · exact ⟨u.links, u.faultMeta, rfl⟩

/-- A transfer out of a link register changes plain registers. -/
theorem callEtfr_shape {par : BitVec 8} {u t : State} (h : callEtfr par u = .next t) :
    ∃ g, t = { u with regs := g } ∧ g.sr = u.regs.sr := by
  obtain ⟨addr, sr, v, -, -, rfl, rfl⟩ := callEtfr_cases h
  split_ifs <;> exact ⟨_, rfl, rfl⟩

/-- In protected mode a call of one of the operations 0x8 to 0xF of the exception unit is a privilege fault. -/
theorem copCall_privileged {w : Word} {s : State} (h1 : w.extractLsb' 12 4 = 0x1#4) (hp : s.protectedMode = true)
    (hop : w.getLsbD 11 = true) : copCall w s = raiseFault .privilegeViolation 2 0 s := by
  have h0 : w.extractLsb' 12 4 ≠ 0x0#4 := by rw [h1]; decide
  have hpresent : s.unitPresent (w.extractLsb' 12 4) = true := by rw [h1]; rfl
  simp only [copCall, if_neg h0, hpresent, operation_getLsbD_three, hop, hp, Bool.not_true, Bool.false_eq_true, if_false,
    Bool.and_self, if_true]

/-- The exception unit has no operation 0xE: a call word that looks like the cause of a fault is a fault (44_coprocessor.md
R301). -/
theorem copCall_faultCause {w : Word} (s : State) (h : w.extractLsb' 8 8 = 0x1E#8) :
    ∃ f, copCall w s = raiseFault f 2 0 s := by
  have hw : w = 0x1E#8 ++ w.extractLsb' 0 8 := 
    h ▸ (BitVec.extractLsb'_append_extractLsb' (w := 8) (len := 8) (x := w)).symm
  obtain ⟨hunit, hop, -⟩ := callWord_fields 0x1E#8 (w.extractLsb' 0 8)
  rw [← hw] at hunit hop
  cases hp : s.protectedMode with
  | true =>
    have hbit : w.getLsbD 11 = true := by rw [← operation_getLsbD_three, hop]; rfl
    exact ⟨_, copCall_privileged hunit hp hbit⟩
  | false => exact ⟨_, copCall_unassigned hunit (.inl hp) (by rw [hop]; decide)⟩

theorem copCall_leaves {w : Word} {s t : State} (h : copCall w s = .next t) : Leaves s t := by
  by_cases hw : w.extractLsb' 8 8 = 0x1E#8
  · obtain ⟨f, hf⟩ := copCall_faultCause s hw
    exact .fault (hf ▸ h)
  obtain hfault | hfault | hexcp | ⟨hsup, hwait | hrete | hrset | hetfr | hettr⟩ := copCall_cases h
  · exact .fault hfault
  · exact .fault hfault
  · obtain hfault | ⟨-, henter⟩ := callExcp_cases hexcp
    · exact .fault hfault
    · exact .trap hw henter
  · injection hwait with hwait
    subst hwait
    exact .call hw ⟨hsup, rfl, .inl rfl, rfl⟩
  · obtain ⟨-, rfl⟩ := returnFromException_cases hrete
    exact .call hw ⟨hsup, rfl, .inr ((dropEA_bit _ 13).trans (Bool.and_false _)), rfl⟩
  · obtain ⟨-, -, rfl⟩ := callRset_cases hrset
    exact .call hw ⟨hsup, rfl, .inr (by simp [RegFile.set_sr]), rfl⟩
  · obtain ⟨g, rfl, hsr⟩ := callEtfr_shape hetfr
    exact .call hw ⟨hsup, rfl, .inl hsr, rfl⟩
  · obtain ⟨l, m, rfl⟩ := callEttr_shape hettr
    exact .call hw ⟨hsup, rfl, .inl rfl, rfl⟩

theorem unitCall_leaves {code : BitVec 8} {f : UnitCall} {s t : State} (h : unitCall code f s = .next t) : Leaves s t :=
  leaves_of_conditional h copCall_leaves

/-! ### Every instruction -/

/-- Every instruction that has a next state leaves one of these. -/
theorem exec_leaves {i : Instr} {s t : State} (h : exec i s = .next t) : Leaves s t := by
  cases i with
  | addi f | adci f | subi f | sbci f | andi f | orri f | xori f | cmpi f | tsai f | tsxi f => exact aluImm_leaves h
  | addiShort f | adciShort f | subiShort f | sbciShort f | andiShort f | orriShort f | xoriShort f | cmpiShort f
  | tsaiShort f | tsxiShort f => exact aluShort_leaves h
  | addr f | adcr f | subr f | sbcr f | andr f | orrr f | xorr f | cmpr f | tsar f | tsxr f => exact aluReg_leaves h
  | undoc08 f | undoc09 f | undoc0B f | undoc0D f => exact undocumentedImm_leaves h
  | undoc28 f | undoc29 f | undoc2B f | undoc2D f => exact undocumentedShort_leaves h
  | undoc38 f | undoc39 f | undoc3B f | undoc3D f => exact undocumentedReg_leaves h
  | loadImm f => exact leaves_of_conditional h loadValue_leaves
  | loadShort f | loadReg f => exact loadUnshifted_leaves h
  | noop => exact aluImm_leaves (show execNoop s = .next t from h)
  | shft f | shfi f | shfr f => exact leaves_of_conditional h aluShifted_leaves
  | storOff f => exact leaves_of_conditional h storeWord_leaves
  | storIdx f => exact leaves_of_conditional h fun hk => storeWord_leaves (withShiftType_cases hk).2
  | storPreOff f => exact leaves_of_conditional h storePreDec_leaves
  | storPreIdx f => exact leaves_of_conditional h fun hk => storePreDec_leaves (withShiftType_cases hk).2
  | loadOff f => exact leaves_of_conditional h loadWord_leaves
  | loadIdx f => exact leaves_of_conditional h fun hk => loadWord_leaves (withShiftType_cases hk).2
  | loadPostOff f => exact leaves_of_conditional h loadPostInc_leaves
  | loadPostIdx f => exact leaves_of_conditional h fun hk => loadPostInc_leaves (withShiftType_cases hk).2
  | ldeaOff f => exact leaves_of_conditional h ldea_leaves
  | ldeaIdx f => exact leaves_of_conditional h fun hk => ldea_leaves (unshifted_cases hk)
  | rets => exact leaves_of_conditional (show execRets s = .next t from h) ldeaInto_leaves
  | ljmpOff f => exact leaves_of_conditional h ldeaInto_leaves
  | ljmpIdx f => exact leaves_of_conditional h fun hk => ldeaInto_leaves (unshifted_cases hk)
  | branOff f => exact leaves_of_conditional h branch_leaves
  | branIdx f => exact leaves_of_conditional h fun hk => branch_leaves (unshifted_cases hk)
  | ljsrOff f => exact leaves_of_conditional h jumpSubroutine_leaves
  | ljsrIdx f => exact leaves_of_conditional h fun hk => jumpSubroutine_leaves (unshifted_cases hk)
  | brsrOff f => exact leaves_of_conditional h branchSubroutine_leaves
  | brsrIdx f => exact leaves_of_conditional h fun hk => branchSubroutine_leaves (unshifted_cases hk)
  | copi f => exact leaves_of_conditional h copCall_leaves
  | copiShort f | copr f => exact leaves_of_conditional h fun hk => copCall_leaves (withShiftType_cases hk).2
  | excp f | wait f | rete f | rset f | etfr f | ettr f => exact unitCall_leaves h

end Sys2Proof.Machine
end

section
/-! PROOF. What a step leaves: an entry, or what one instruction leaves, perhaps with a trace entry after it. From it, the
invariant of the machine, the containment of protected mode, and the trace fault. -/

namespace Sys2Proof.Machine

/-! ### Entering a handler -/

/-- What every entry leaves, of a trap, an interrupt or a fault: status register and memory, a level above 0, and control
where a vector points. -/
structure EntersHandler (s t : State) : Prop where
  memory : t.mem = s.mem
  status : t.regs.sr = entrySr s.regs.sr
  level : t.level ≠ 0
  target : ∃ v, t.pc = t.vectorTarget v
  regs : regsKept [.sr, .ph, .pl] s t

/-- A vector reads the same where memory and the platform's inputs are the same. -/
theorem State.vectorTarget_congr {s t : State} (hmem : t.mem = s.mem) (hin : InputsKept s t) (v : BitVec 8) :
    t.vectorTarget v = s.vectorTarget v := by
  have hdevice : ∀ a, t.deviceRead a = s.deviceRead a := fun a => by
    rw [State.deviceRead, State.deviceRead, hin.deviceWords, hin.freeCount]
  have hmap : ∀ a, t.isDevice a = s.isDevice a := fun a => by rw [State.isDevice, State.isDevice, hin.params]
  have hword : ∀ a, t.readWord a = s.readWord a := fun a => by
    rw [State.readWord, State.readWord, hmap, hdevice, hmem]
  rw [State.vectorTarget, State.vectorTarget, hword, hword]

/-- A completed entry above level 0 is one. -/
theorem entersHandler_of_enterException {s t : State} {v : BitVec 8} {l : Fin 8} {k : Fin 7} {ret : BitVec 32} (hl : l ≠ 0)
    (h : enterException v l k ret s = .next t) : EntersHandler s t := by
  obtain ⟨hentered, -, -, -, hmem, hsr⟩ := entered_of_enterException h
  have htarget := hentered.target.trans (State.vectorTarget_congr hmem hentered.inputs v).symm
  exact ⟨hmem, hsr, hentered.level ▸ hl, ⟨v, htarget⟩, hentered.regs⟩

/-- An entry is seen alike from a state with the same memory and the same registers but for `pl`. -/
theorem EntersHandler.of_kept {s u t : State} (h : EntersHandler u t) (hmem : u.mem = s.mem) (hregs : regsKept [.pl] s u) :
    EntersHandler s t where
  memory := h.memory.trans hmem
  status := h.status.trans (congrArg entrySr (hregs .sr (by decide)))
  level := h.level
  target := h.target
  regs r hr := (h.regs r hr).trans (hregs r (by simp_all))

/-- A completed fault is an entry. -/
theorem entersHandler_of_takeFault {f : FaultKind} {phase : BitVec 3} {bus : Addr} {ret : BitVec 32} {s t : State}
    (h : takeFault f phase bus ret s = .next t) : EntersHandler s t := by
  obtain ⟨-, henter⟩ | ⟨-, henter⟩ := takeFault_cases h <;>
    exact (entersHandler_of_enterException (by decide) henter).of_kept rfl fun _ _ => rfl

/-- A completed trap is one. -/
theorem entersHandler_of_trap {v : BitVec 8} {ret : BitVec 32} {w : Word} {s t : State}
    (h : enterException v 1 0 ret { s.advance with cause := w } = .next t) : EntersHandler s t :=
  (entersHandler_of_enterException (by decide) h).of_kept rfl fun r hr => RegFile.get_set_ne _ _ (List.ne_of_not_mem_cons hr)

/-- What the service point enters is one. -/
theorem entersHandler_of_serviceInterrupt {s t : State} (h : serviceInterrupt s = some (.next t)) : EntersHandler s t := by
  obtain ⟨-, hconflict⟩ | ⟨k, -, henter⟩ := serviceInterrupt_cases h
  · exact (entersHandler_of_takeFault hconflict.symm).of_kept rfl fun _ _ => rfl
  · exact (entersHandler_of_enterException (by cases k <;> decide) henter.symm).of_kept rfl fun _ _ => rfl

/-! ### The step -/

/-- The two states differ at most in the platform's inputs, the latches, the cause register and the model's counter. -/
structure SameCore (s b : State) : Prop where
  regs : b.regs = s.regs
  level : b.level = s.level
  links : b.links = s.links
  faultMeta : b.faultMeta = s.faultMeta
  mem : b.mem = s.mem

/-- The state at the boundary. -/
theorem State.atBoundary_sameCore (s : State) : SameCore s s.atBoundary := by
  obtain ⟨p, e, w, d, hshape⟩ := s.atBoundary_shape
  rw [hshape]
  exact ⟨rfl, rfl, rfl, rfl, rfl⟩

/-- The state in which the instruction begins. -/
theorem State.beginInstr_sameCore (s : State) : SameCore s s.atBoundary.beginInstr := by
  obtain ⟨hregs, hlevel, hlinks, hmeta, hmem⟩ := s.atBoundary_sameCore
  exact ⟨hregs, hlevel, hlinks, hmeta, hmem⟩

/-- What a step leaves: nothing new while the machine waits, an entry, what an instruction leaves, or an entry after it. -/
theorem step_leaves {s t : State} (h : step s = .next t) :
    ∃ b, SameCore s b ∧ (t = b ∨ EntersHandler b t ∨ Leaves b t ∨ ∃ u, Leaves b u ∧ EntersHandler u t) := by
  obtain hservice | ⟨-, rfl⟩ | ⟨f, phase, bus, -, hfetch⟩ | hinstr := step_cases h
  · exact ⟨_, s.atBoundary_sameCore, .inr (.inl (entersHandler_of_serviceInterrupt hservice))⟩
  · exact ⟨_, s.atBoundary_sameCore, .inl rfl⟩
  · exact ⟨_, s.beginInstr_sameCore, .inr (.inl (entersHandler_of_takeFault hfetch))⟩
  · refine ⟨_, s.beginInstr_sameCore, .inr (.inr ?_)⟩
    obtain hexec | ⟨u, hexec, htrace⟩ := traceAfter_cases hinstr
    · exact .inl (exec_leaves hexec)
    · exact .inr ⟨u, exec_leaves hexec, entersHandler_of_takeFault htrace⟩

/-! ### The invariant -/

/-- The invariant is about memory and bit 13 of the status register only. -/
theorem State.Inv.of_kept {s t : State} (h : s.Inv) (hmem : t.mem = s.mem) (hsr : t.regs.sr = s.regs.sr) : t.Inv :=
  ⟨hmem ▸ h.memory, hsr ▸ h.noStoredEA⟩

/-- Words that agree on a field agree on its bits. -/
theorem getLsbD_of_extractLsb'_eq {v w : Word} {start len : Nat} (h : v.extractLsb' start len = w.extractLsb' start len)
    {i : Nat} (hlo : start ≤ i) (hhi : i < start + len) : v.getLsbD i = w.getLsbD i := by
  have hbit := congrArg (·.getLsbD (i - start)) h
  have hplace : start + (i - start) = i := by omega
  have hlt : i - start < len := by omega
  simpa only [BitVec.getLsbD_extractLsb', hplace, hlt, decide_true, Bool.true_and] using hbit

/-- No write of a register stores bit 13 (10_state.md R38). -/
theorem State.Inv.writeReg {s : State} (h : s.Inv) (r : Reg) (v : Word) : (s.writeReg r v).Inv where
  memory := (s.writeReg_mem r v).symm ▸ h.memory
  noStoredEA := by
    by_cases hr : r = .sr
    · subst hr
      cases hp : s.protectedMode with
      | true =>
        exact (getLsbD_of_extractLsb'_eq (State.writeReg_sr_protected v hp).1 (by decide) (by decide)).trans h.noStoredEA
      | false => rw [State.writeReg_sr_supervisor v hp, dropEA_bit]; exact Bool.and_false _
    · have hsr : (s.writeReg r v).regs.sr = s.regs.sr := s.writeReg_get_ne v (Ne.symm hr)
      exact hsr ▸ h.noStoredEA

/-- Storing a word keeps the canonical form. -/
theorem State.Inv.writeWord {s : State} (h : s.Inv) (a : Addr) (v : Word) : (s.writeWord a v).Inv where
  noStoredEA := (s.writeWord_regs a v).symm ▸ h.noStoredEA
  memory := by
    cases hd : s.isDevice a with
    | true => exact State.writeWord_of_device v hd ▸ h.memory
    | false => exact State.writeWord_of_plain v hd ▸ Memory.wf_writeWord a v h.memory

/-- The writes of an instruction keep the invariant. -/
theorem Wrote.inv {s t : State} (h : Wrote s t) (hs : s.Inv) : t.Inv := by
  induction h with
  | advance => exact hs.of_kept rfl rfl
  | writeReg v _ _ ih => exact ih.writeReg _ v
  | @setFlags u x _ ih =>
    exact ⟨ih.memory, (getLsbD_of_extractLsb'_eq (u.setFlags_control x) (by decide) (by decide)).trans ih.noStoredEA⟩
  | writeWord a v _ ih => exact ih.writeWord a v

/-- So does an entry. -/
theorem EntersHandler.inv {s t : State} (h : EntersHandler s t) (hs : s.Inv) : t.Inv where
  memory := h.memory ▸ hs.memory
  noStoredEA := by rw [h.status, entrySr_getLsbD, hs.noStoredEA]; rfl

/-- So does an instruction. -/
theorem Leaves.inv {s t : State} (h : Leaves s t) (hs : s.Inv) : t.Inv := by
  cases h with
  | fault hfault => exact (entersHandler_of_takeFault hfault).inv hs
  | wrote hwrote => exact hwrote.inv hs
  | trap _ htrap => exact (entersHandler_of_trap htrap).inv hs
  | call _ hcall =>
    obtain ⟨-, hmem, hkept | hclear, -⟩ := hcall
    · exact hs.of_kept hmem hkept
    · exact ⟨hmem ▸ hs.memory, hclear⟩

/-- Settles O58, from what a step leaves. -/
theorem invariantKept : Obligations.InvariantKept := by
  intro s t hs h
  obtain ⟨b, hcore, hcases⟩ := step_leaves h
  have hb : b.Inv := hs.of_kept hcore.mem (congrArg RegFile.sr hcore.regs)
  obtain rfl | henter | hinstr | ⟨u, hinstr, htrace⟩ := hcases
  · exact hb
  · exact henter.inv hb
  · exact hinstr.inv hb
  · exact htrace.inv (hinstr.inv hb)

/-! ### Protected mode -/

/-- The segments of l, a and s are as they were. -/
structure SegmentsKept (s t : State) : Prop where
  lh : t.regs.lh = s.regs.lh
  ah : t.regs.ah = s.regs.ah
  sh : t.regs.sh = s.regs.sh

/-- Protected mode still, and nothing of the supervisor's state changed. -/
structure Contained (s t : State) : Prop where
  segments : SegmentsKept s t
  ph : t.regs.ph = s.regs.ph
  statusHigh : t.regs.sr.extractLsb' 8 8 = s.regs.sr.extractLsb' 8 8
  level : t.level = s.level
  links : t.links = s.links
  faultMeta : t.faultMeta = s.faultMeta

/-- The mode is in the upper byte of the status register. -/
theorem Contained.protectedMode {s t : State} (h : Contained s t) : t.protectedMode = s.protectedMode :=
  getLsbD_of_extractLsb'_eq h.statusHigh (by decide) (by decide)

/-- A state with the same core is contained. -/
theorem SameCore.contained {s b : State} (h : SameCore s b) : Contained s b := by
  obtain ⟨hregs, hlevel, hlinks, hmeta, -⟩ := h
  exact ⟨⟨by rw [hregs], by rw [hregs], by rw [hregs]⟩, by rw [hregs], by rw [hregs], hlevel, hlinks, hmeta⟩

/-- Containment, step after step. -/
theorem Contained.trans {s t u : State} (h : Contained s t) (h' : Contained t u) : Contained s u where
  segments := ⟨h'.segments.lh.trans h.segments.lh, h'.segments.ah.trans h.segments.ah, h'.segments.sh.trans h.segments.sh⟩
  ph := h'.ph.trans h.ph
  statusHigh := h'.statusHigh.trans h.statusHigh
  level := h'.level.trans h.level
  links := h'.links.trans h.links
  faultMeta := h'.faultMeta.trans h.faultMeta

/-- A write in protected mode of a register it may write. -/
theorem State.writeReg_contained {s : State} {r : Reg} (v : Word) (hp : s.protectedMode = true) (hr : isHighReg r = false) :
    Contained s (s.writeReg r v) := by
  have hhigh : ∀ q, isHighReg q = true → (s.writeReg r v).regs.get q = s.regs.get q := fun q hq =>
    s.writeReg_get_ne v fun heq => Bool.false_ne_true ((heq ▸ hr).symm.trans hq)
  refine ⟨⟨hhigh .lh rfl, hhigh .ah rfl, hhigh .sh rfl⟩, hhigh .ph rfl, ?_, s.writeReg_level r v, s.writeReg_links r v,
    s.writeReg_faultMeta r v⟩
  by_cases hsr : r = .sr
  · exact hsr ▸ (State.writeReg_sr_protected v hp).1
  · have hkept : (s.writeReg r v).regs.sr = s.regs.sr := s.writeReg_get_ne v (Ne.symm hsr)
    rw [hkept]

/-- Going past the instruction. -/
theorem State.advance_contained {s : State} (hp : s.protectedMode = true) : Contained s s.advance :=
  State.writeReg_contained (r := .pl) _ hp rfl

/-- Setting the flags. -/
theorem State.setFlags_contained (s : State) (x : Flags) : Contained s (s.setFlags x) := by
  refine ⟨⟨rfl, rfl, rfl⟩, rfl, ?_, rfl, rfl, rfl⟩
  apply BitVec.eq_of_getLsbD_eq
  intro i hi
  rw [BitVec.getLsbD_extractLsb', BitVec.getLsbD_extractLsb',
    getLsbD_of_extractLsb'_eq (s.setFlags_control x) (by omega) (by omega)]

/-- Storing a word. -/
theorem State.writeWord_contained (s : State) (a : Addr) (v : Word) : Contained s (s.writeWord a v) := by
  obtain ⟨m, d, hshape⟩ := s.writeWord_shape a v
  rw [hshape]
  exact ⟨⟨rfl, rfl, rfl⟩, rfl, rfl, rfl, rfl, rfl⟩

/-- The writes of an instruction in protected mode are contained. -/
theorem Wrote.contained {s t : State} (h : Wrote s t) (hp : s.protectedMode = true) : Contained s t := by
  induction h with
  | advance => exact State.advance_contained hp
  | @writeReg u r v _ hr ih =>
    have hlow : isHighReg r = false := State.writeForbidden_of_protected hp ▸ hr
    exact ih.trans (State.writeReg_contained v (ih.protectedMode.trans hp) hlow)
  | @setFlags u x _ ih => exact ih.trans (u.setFlags_contained x)
  | @writeWord u a v _ ih => exact ih.trans (u.writeWord_contained a v)

/-- Supervisor mode above level 0, at an address a vector holds, the segments of l, a and s as they were. -/
structure Escaped (s t : State) : Prop where
  supervisor : t.protectedMode = false
  level : t.level ≠ 0
  target : ∃ v, t.pc = t.vectorTarget v
  segments : SegmentsKept s t

/-- An entry from a state with the same segments leaves protected mode. -/
theorem EntersHandler.escaped {s u t : State} (h : EntersHandler u t) (hs : SegmentsKept s u) : Escaped s t where
  supervisor := by rw [State.protectedMode, h.status, entrySr_getLsbD]; simp
  level := h.level
  target := h.target
  segments := ⟨(h.regs .lh (by decide)).trans hs.lh, (h.regs .ah (by decide)).trans hs.ah,
    (h.regs .sh (by decide)).trans hs.sh⟩

/-- An instruction in protected mode is contained or enters a handler. -/
theorem Leaves.contained_or_enters {s t : State} (h : Leaves s t) (hp : s.protectedMode = true) :
    Contained s t ∨ EntersHandler s t := by
  cases h with
  | fault hfault => exact .inr (entersHandler_of_takeFault hfault)
  | wrote hwrote => exact .inl (hwrote.contained hp)
  | trap _ htrap => exact .inr (entersHandler_of_trap htrap)
  | call _ hcall => exact absurd (hcall.supervisor.symm.trans hp) Bool.false_ne_true

/-- So is a step. -/
theorem step_contained_or_escaped {s t : State} (hp : s.protectedMode = true) (h : step s = .next t) :
    Contained s t ∨ Escaped s t := by
  obtain ⟨b, hcore, hcases⟩ := step_leaves h
  have hb := hcore.contained
  have hbp := hb.protectedMode.trans hp
  obtain rfl | henter | hinstr | ⟨u, hinstr, htrace⟩ := hcases
  · exact .inl hb
  · exact .inr (henter.escaped hb.segments)
  · obtain hkept | henter := hinstr.contained_or_enters hbp
    · exact .inl (hb.trans hkept)
    · exact .inr (henter.escaped hb.segments)
  · obtain hkept | henter := hinstr.contained_or_enters hbp
    · exact .inr (htrace.escaped (hb.trans hkept).segments)
    · exact .inr (htrace.escaped (henter.escaped hb.segments).segments)

/-- Settles O60. -/
theorem protectedModeContained : Obligations.ProtectedModeContained := by
  intro s t hp h
  obtain hkept | hesc := step_contained_or_escaped hp h
  · have hmode := hkept.protectedMode.trans hp
    obtain ⟨⟨hlh, hah, hsh⟩, hph, hsr, hlevel, hlinks, hmeta⟩ := hkept
    exact .inl ⟨hmode, hlh, hah, hsh, hph, hsr, hlevel, hlinks, hmeta⟩
  · obtain ⟨hsup, hlevel, htarget, hlh, hah, hsh⟩ := hesc
    exact .inr ⟨hsup, hlevel, htarget, hlh, hah, hsh⟩

/-! ### The trace -/

/-- A vector that reads is readable. -/
theorem State.vectorReadable_of_readVector {s : State} {v : BitVec 8} {a : BitVec 32} (h : s.readVector v = some a) :
    s.vectorReadable v := by
  unfold State.readVector at h
  simp only at h
  split at h
  · cases h
  next hbus => rwa [Bool.not_eq_true, Bool.or_eq_false_iff] at hbus

/-- An entry that completes has read its vector. -/
theorem vectorReadable_of_enterException {s t : State} {v : BitVec 8} {l : Fin 8} {k : Fin 7} {ret : BitVec 32}
    (h : enterException v l k ret s = .next t) : s.vectorReadable v := by
  unfold enterException at h
  split at h
  · cases h
  next hread => exact State.vectorReadable_of_readVector hread

/-- A fault that completes could be taken. -/
theorem canFault_of_raiseFault {f : FaultKind} {phase : BitVec 3} {bus : Addr} {s t : State}
    (h : raiseFault f phase bus s = .next t) : s.canFault f := by
  obtain ⟨hl, henter⟩ | ⟨hl, henter⟩ := takeFault_cases h
  · rw [State.canFault, if_pos hl]
    unfold doubleFault at henter
    exact (vectorReadable_of_enterException henter :)
  · rw [State.canFault, if_neg hl]
    exact (vectorReadable_of_enterException henter :)

/-- The writes of an instruction leave the cause register. -/
theorem Wrote.cause {s t : State} (h : Wrote s t) : t.cause = s.cause := by
  induction h with
  | advance => rfl
  | writeReg v _ _ ih => exact (State.writeReg_cause _ _ v).trans ih
  | setFlags _ _ ih => exact ih
  | writeWord a v _ ih => exact (State.writeWord_cause _ a v).trans ih

/-- The idle cause is not that of a fault. -/
theorem causeIdle_not_fault : causeIdle.extractLsb' 8 8 ≠ 0x1E#8 := by
  unfold causeIdle
  split <;> decide

/-- After a fault the cause register says so. -/
theorem faultEntered_of_faults {f : FaultKind} {phase : BitVec 3} {bus : Addr} {s u : State}
    (h : faults f phase bus s (.next u)) : u.faultEntered = true := by
  obtain ⟨_, ⟨⟩, hfirst, hdouble⟩ := h
  rw [State.faultEntered, beq_iff_eq]
  by_cases hl : s.level = 7
  · rw [(hdouble hl).cause]; rfl
  · rw [(hfirst hl).cause, BitVec.extractLsb'_append_eq_of_le (by decide)]
    exact BitVec.extractLsb'_eq_self

/-- After an instruction that began with the idle cause and took no fault it does not. -/
theorem Leaves.faults_or_not_faultEntered {s u : State} (h : Leaves s u) (hidle : s.cause = causeIdle) :
    (∃ f phase bus, faults f phase bus s (.next u)) ∨ u.faultEntered = false := by
  have hcause : ∀ {w : Word}, w.extractLsb' 8 8 ≠ 0x1E#8 → u.cause = w → u.faultEntered = false := fun hw hu =>
    beq_eq_false_iff_ne.mpr (hu ▸ hw)
  cases h with
  | @fault f phase bus _ hfault =>
    exact .inl ⟨f, phase, bus, hfault ▸ faults_raiseFault phase bus (canFault_of_raiseFault hfault)⟩
  | wrote hwrote => exact .inr (hcause causeIdle_not_fault (hwrote.cause.trans hidle))
  | trap hw htrap =>
    obtain ⟨-, -, hentered, -⟩ := entered_of_enterException htrap
    exact .inr (hcause hw hentered)
  | call hw hcall => exact .inr (hcause hw hcall.cause)

/-- Where the service point enters nothing and the machine does not wait, a step is one instruction. -/
theorem step_eq_runInstruction {s : State} (hservice : serviceInterrupt s.atBoundary = none)
    (hwait : s.atBoundary.waiting = false) : step s = runInstruction s.atBoundary := by
  simp only [step, cycle, hservice, hwait, Bool.false_eq_true, if_false]

/-- An instruction whose fetch faults is that fault. -/
theorem runInstruction_of_fetchFault {s : State} {f : FaultKind} {phase : BitVec 3} {bus : Addr}
    (h : s.beginInstr.fetchFault = some (f, phase, bus)) : runInstruction s = raiseFault f phase bus s.beginInstr := by
  simp only [runInstruction, h]

/-- The four bytes of a word are the word. -/
theorem decode_wordBytes (w : InstrWord) : decode (wordBytes w) = .ok (decodeWord w, []) := by
  have hword : w.extractLsb' 24 8 ++ w.extractLsb' 16 8 ++ w.extractLsb' 8 8 ++ w.extractLsb' 0 8 = w := by
    apply BitVec.eq_of_getLsbD_eq
    intro i hi
    simp only [BitVec.getLsbD_append, BitVec.getLsbD_extractLsb']
    grind
  rw [wordBytes, decode, hword]

/-- An instruction that is fetched is the one its bytes decode to, and its trace. -/
theorem runInstruction_of_fetched {s : State} {i : Instr} {rest : List Byte} (h : s.beginInstr.fetchFault = none)
    (hi : decode s.fetchBytes = .ok (i, rest)) : runInstruction s = traceAfter s.traceMode (exec i s.beginInstr) := by
  have hdecode : decodeWord s.fetchWord = i := by
    rw [State.fetchBytes, decode_wordBytes] at hi
    injection hi with hi
    exact congrArg Prod.fst hi
  simp only [runInstruction, h, hdecode]

/-- Settles O12: the cause register tells an instruction that took a fault from one that did not. -/
theorem traceFault : Obligations.TraceFault := by
  rintro s t b rfl hservice hwait htrace rfl
  rw [step_eq_runInstruction hservice hwait]
  refine ⟨fun i rest u hfetch hdecode hexec => ?_, fun f phase bus hfetch hcan => ?_⟩
  · rw [runInstruction_of_fetched hfetch hdecode, hexec, htrace]
    refine ⟨fun hnone hcan => ?_, fun f phase bus hfault => ?_⟩
    · obtain ⟨f, phase, bus, hfault⟩ | hquiet := (exec_leaves hexec).faults_or_not_faultEntered rfl
      · exact absurd hfault (hnone f phase bus)
      · simp only [traceAfter, hquiet, Bool.not_false, Bool.and_self, if_true]
        exact faults_raiseFault 5 0 hcan
    · simp only [traceAfter, faultEntered_of_faults hfault, Bool.not_true, Bool.and_false, Bool.false_eq_true, if_false]
  · rw [runInstruction_of_fetchFault hfetch]
    exact faults_raiseFault phase bus hcan

end Sys2Proof.Machine
end

section
/-! PROOF. The privilege check on the destination comes first: the forbidden write of a high register is the Privilege
Violation Fault in every instruction that writes a register. -/

namespace Sys2Proof.Machine

/-! ### The check in each shared operation -/

section
variable {s : State} {dest : Reg} (hw : s.writeForbidden dest = true)
include hw

theorem aluFinish_forbidden (op : AluOp) (sel : StatusSel) (a b : Word) (shf : Flags) :
    aluFinish op true sel dest a b shf s = raiseFault .privilegeViolation 2 0 s := by
  rw [aluFinish, hw]
  rfl

theorem loadValue_forbidden (v : Word) : loadValue dest v s = raiseFault .privilegeViolation 2 0 s := if_pos hw

theorem loadWord_forbidden (pr : Pair) (off : Word) (g : Word → Word) :
    loadWord dest pr off g s = raiseFault .privilegeViolation 2 0 s := if_pos hw

theorem loadPostInc_forbidden (pr : Pair) (off : Word) (g : Word → Word) :
    loadPostInc dest pr off g s = raiseFault .privilegeViolation 2 0 s := if_pos hw

theorem aluShifted_forbidden (op : AluOp) {sel : StatusSel} {sh : Shift} (src : Reg) (b : Word) (hsel : sel ≠ .reserved)
    (hsh : sh.type ≠ .reserved) : aluShifted op true sel sh dest src b s = raiseFault .privilegeViolation 2 0 s := by
  rw [aluShifted, if_neg hsel, if_neg hsh]
  exact aluFinish_forbidden hw op sel _ b _

end

theorem aluImm_forbidden (op : AluOp) {f : ImmAlu} {s : State} (hc : condHolds f.cond s.flags = true)
    (hw : s.writeForbidden f.reg = true) (hsel : f.sel ≠ .reserved) :
    aluImm op true f s = raiseFault .privilegeViolation 2 0 s := by
  rw [aluImm, conditional_of_holds hc, if_neg hsel]
  exact aluFinish_forbidden hw op f.sel _ f.imm _

theorem aluShort_forbidden (op : AluOp) {f : ShortAlu} {s : State} (hc : condHolds f.cond s.flags = true)
    (hw : s.writeForbidden f.reg = true) (hsel : f.sel ≠ .reserved) (hsh : f.shift.type ≠ .reserved) :
    aluShort op true f s = raiseFault .privilegeViolation 2 0 s :=
  (conditional_of_holds hc).trans (aluShifted_forbidden hw op f.reg _ hsel hsh)

theorem aluReg_forbidden (op : AluOp) {f : RegAlu} {s : State} (hc : condHolds f.cond s.flags = true)
    (hw : s.writeForbidden f.r1 = true) (hsel : f.sel ≠ .reserved) (hsh : f.shift.type ≠ .reserved) :
    aluReg op true f s = raiseFault .privilegeViolation 2 0 s :=
  (conditional_of_holds hc).trans (aluShifted_forbidden hw op f.r2 _ hsel hsh)

/-- The check of the shift type, in an instruction whose condition holds. -/
theorem conditional_withShiftType_of_holds {c : Cond} {sh : Shift} {k : Result} {s : State}
    (hc : condHolds c s.flags = true) (hsh : sh.type ≠ .reserved) : conditional c s (withShiftType sh k) = k :=
  (conditional_of_holds hc).trans (withShiftType_of_ne hsh)

/-- LOAD of a value in the formats that have shift fields, when these are zero. -/
theorem loadUnshifted_forbidden {c : Cond} {sh : Shift} {dest : Reg} (v : Word) {s : State}
    (hc : condHolds c s.flags = true) (hw : s.writeForbidden dest = true)
    (hsh : sh = { type := .nul, amount := .literal 0 }) :
    conditional c s (if noShiftFields sh then loadValue dest v s else .refused .shiftFieldsNotZero) =
      raiseFault .privilegeViolation 2 0 s := by
  subst hsh
  exact (conditional_of_holds hc).trans (loadValue_forbidden hw v)

/-- Settles O34: each instruction is the fault its check raises. -/
theorem privilegedDestination : Obligations.PrivilegedDestination := by
  intro s hcan hp traps
  have fault : ∀ {r : Result}, r = raiseFault .privilegeViolation 2 0 s → faults .privilegeViolation 2 0 s r :=
    fun hr => hr ▸ faults_raiseFault 2 0 hcan
  have forbidden : ∀ {r : Reg}, r ∈ [Reg.lh, .ah, .sh, .ph] → s.writeForbidden r = true :=
    fun hr => (s.writeForbidden_iff _).mpr ⟨hp, hr⟩
  refine ⟨fun f hc hr => ?imm, fun f hc hr => ?short, fun f hc hr => ?reg, fun f hc hr hsh => ?shiftOne,
    fun f hc hr hsh => ?shiftReg, fun f hc hr => ?immMem, fun f hc hr hsh => ?regMem⟩ <;> have hw := forbidden hr
  case imm =>
    refine ⟨fault ((conditional_of_holds hc).trans (loadValue_forbidden hw f.imm)), fun hsel => ?_⟩
    have alu := fun op => fault (aluImm_forbidden op hc hw hsel)
    simp only [List.forall_mem_cons]
    exact ⟨alu .add, alu .adc, alu .sub, alu .sbc, alu .and, alu .orr, alu .xor, List.forall_mem_nil _⟩
  case short =>
    refine ⟨fun hzero => fault (loadUnshifted_forbidden _ hc hw hzero), fun hsel hsh => ?_⟩
    have alu := fun op => fault (aluShort_forbidden op hc hw hsel hsh)
    simp only [List.forall_mem_cons]
    exact ⟨alu .add, alu .adc, alu .sub, alu .sbc, alu .and, alu .orr, alu .xor, List.forall_mem_nil _⟩
  case reg =>
    refine ⟨fun hzero => fault (loadUnshifted_forbidden _ hc hw hzero), fun hsel hsh => ?_⟩
    have alu := fun op => fault (aluReg_forbidden op hc hw hsel hsh)
    simp only [List.forall_mem_cons]
    exact ⟨alu .add, alu .adc, alu .sub, alu .sbc, alu .and, alu .orr, alu .xor, List.forall_mem_nil _⟩
  case shiftOne =>
    have shift := fault ((conditional_of_holds hc).trans
      (aluShifted_forbidden hw .add (sel := .fromShift) f.reg (ext8 0) (by decide) hsh))
    exact ⟨shift, shift⟩
  case shiftReg =>
    exact fault ((conditional_of_holds hc).trans
      (aluShifted_forbidden hw .add (sel := .fromShift) f.r2 _ (by decide) hsh))
  case immMem =>
    exact ⟨fault ((conditional_of_holds hc).trans (loadWord_forbidden hw f.pair f.imm id)),
      fault ((conditional_of_holds hc).trans (loadPostInc_forbidden hw f.pair f.imm id))⟩
  case regMem =>
    exact ⟨fault ((conditional_withShiftType_of_holds hc hsh).trans (loadWord_forbidden hw f.pair _ _)),
      fault ((conditional_withShiftType_of_holds hc hsh).trans (loadPostInc_forbidden hw f.pair _ _))⟩

end Sys2Proof.Machine
end

section
/-! PROOF. How frames compose, and the frames of the single updates: moving past the instruction, storing a register, storing
a word. -/

namespace Sys2Proof.Machine

/-! ### Composition -/

theorem InputsKept.trans {s t u : State} (h : InputsKept s t) (h' : InputsKept t u) : InputsKept s u where
  irqEvents := h'.irqEvents.trans h.irqEvents
  busErrors := h'.busErrors.trans h.busErrors
  params := h'.params.trans h.params
  deviceWords := h'.deviceWords.trans h.deviceWords
  deviceEvents := h'.deviceEvents.trans h.deviceEvents
  freeCount := h'.freeCount.trans h.freeCount

theorem UnitKept.trans {s t u : State} (h : UnitKept s t) (h' : UnitKept t u) : UnitKept s u where
  rest :=
    { level := h'.rest.level.trans h.rest.level
      waiting := h'.rest.waiting.trans h.rest.waiting
      pending := h'.rest.pending.trans h.rest.pending
      links := h'.rest.links.trans h.rest.links
      faultMeta := h'.rest.faultMeta.trans h.rest.faultMeta
      inputs := h.rest.inputs.trans h'.rest.inputs }
  cause := h'.cause.trans h.cause

theorem memoryKept.trans {s t u : State} (h : memoryKept s t) (h' : memoryKept t u) : memoryKept s u where
  bytes a := (h'.bytes a).trans (h.bytes a)
  devices := h'.devices.trans h.devices

/-- What two changes leave is what neither names. -/
theorem regsKept.trans {c d : List Reg} {s t u : State} (h : regsKept c s t) (h' : regsKept d t u) :
    regsKept (d ++ c) s u := by
  intro r hr
  obtain ⟨hd, hc⟩ := not_or.mp (mt List.mem_append.mpr hr)
  exact (h' r hd).trans (h r hc)

theorem regsKept.mono {c d : List Reg} {s t : State} (h : regsKept c s t) (hsub : c ⊆ d) : regsKept d s t :=
  fun r hr => h r fun hc => hr (hsub hc)

theorem OnlyRegs.trans {c d : List Reg} {s t u : State} (h : OnlyRegs c s t) (h' : OnlyRegs d t u) :
    OnlyRegs (d ++ c) s u :=
  ⟨h.regs.trans h'.regs, h.memory.trans h'.memory, h.unit.trans h'.unit⟩

/-! ### Single updates -/

/-- Storing a register changes that register only. -/
theorem State.onlyRegs_setReg (s : State) (r : Reg) (v : Word) : OnlyRegs [r] s (s.setReg r v) where
  regs _ hq := RegFile.get_set_ne _ v (List.ne_of_not_mem_cons hq)
  memory := ⟨fun _ => rfl, rfl⟩
  unit := ⟨⟨rfl, rfl, rfl, rfl, rfl, ⟨rfl, rfl, rfl, rfl, rfl, rfl⟩⟩, rfl⟩

/-- Moving past the instruction changes `pl` only. -/
theorem State.onlyRegs_advance (s : State) : OnlyRegs [.pl] s s.advance := s.onlyRegs_setReg .pl _

/-- What then leaves `pl` has moved on past the instruction. -/
theorem movedOn_of_regsKept {c : List Reg} {s t : State} (h : regsKept c s.advance t) (hpl : .pl ∉ c) : movedOn s t :=
  h .pl hpl

/-- The low register of a pair is not the status register. -/
theorem pairLow_ne_sr (pr : Pair) : pairLow pr ≠ .sr := by cases pr <;> decide

/-- Only that of `p` is the low half of the program counter. -/
theorem pl_ne_pairLow {pr : Pair} (h : pr ≠ .p) : Reg.pl ≠ pairLow pr := by cases pr <;> simp_all [pairLow]

/-- A store of a word changes no register. -/
theorem State.regsKept_writeWord (s : State) (a : Addr) (v : Word) : regsKept [] s (s.writeWord a v) :=
  fun _ _ => by rw [State.writeWord_regs]

/-- It leaves the exception unit and the inputs. -/
theorem State.unitKept_writeWord (s : State) (a : Addr) (v : Word) : UnitKept s (s.writeWord a v) := by
  obtain ⟨m, d, hshape⟩ := s.writeWord_shape a v
  rw [hshape]
  exact ⟨⟨rfl, rfl, rfl, rfl, rfl, ⟨rfl, rfl, rfl, rfl, rfl, rfl⟩⟩, rfl⟩

/-- It stores the word in memory, or sends it to the device there. -/
theorem State.storedAt_writeWord {s : State} (a : Addr) (v : Word) (hwf : s.mem.wf = true) :
    StoredAt a v s (s.writeWord a v) := by
  cases hdev : s.isDevice a with
  | true =>
    rw [State.writeWord_of_device v hdev]
    exact ⟨fun h => absurd hdev (Bool.eq_false_iff.mp h), fun _ _ _ => rfl,
      fun h => absurd hdev (Bool.eq_false_iff.mp h), fun _ => ⟨rfl, rfl⟩⟩
  | false =>
    rw [State.writeWord_of_plain v hdev]
    exact ⟨fun _ => Memory.readWord_writeWord_self a v hwf, fun _ => Memory.readByte_writeWord_outside s.mem a v,
      fun _ => rfl, fun h => absurd h (Bool.eq_false_iff.mp hdev)⟩

/-- What a write of `dest` leaves there depends on the status register before and on `dest` after. -/
theorem WrittenTo.congr {dest : Reg} {v : Word} {s t s' t' : State} (h : WrittenTo dest v s t)
    (hsr : s'.regs.sr = s.regs.sr) (hdest : t'.regs.get dest = t.regs.get dest) : WrittenTo dest v s' t' := by
  have hmode : s'.protectedMode = s.protectedMode := congrArg (·.getLsbD 8) hsr
  have hstatus : dest = .sr → t'.regs.sr = t.regs.sr := by
    rintro rfl
    exact hdest
  refine ⟨fun hd => hdest.trans (h.plain hd), fun hd => ?_, fun hd hp => ?_, fun hd hp => ?_⟩ <;> rw [hstatus hd]
  · exact h.statusLow hd
  · rw [hsr]; exact h.statusHighProtected hd (hmode ▸ hp)
  · exact h.statusHigh hd (hmode ▸ hp)

end Sys2Proof.Machine
end

section
/-! PROOF. The first entry of a table under its key; the vectors and the codes of the faults; entries and resets through a
vector that can or cannot be read. -/

namespace Sys2Proof.Machine

/-! ### The first entry of a table -/

/-- A search by key finds the entry no earlier one shares its key with. -/
theorem find?_key_of_first {α κ : Type} [BEq κ] [LawfulBEq κ] (key : α → κ) {earlier : List α} (x : α) (later : List α)
    (h : ∀ c ∈ earlier, key c ≠ key x) : (earlier ++ x :: later).find? (fun c => key c == key x) = some x :=
  List.find?_eq_some_iff_append.mpr
    ⟨beq_self_eq_true _, earlier, later, rfl, fun c hc => by rw [beq_eq_false_iff_ne.mpr (h c hc)]; rfl⟩

/-- The code of a fault the parameter does not list. -/
theorem State.faultCode_of_unlisted {s : State} {f : FaultKind} (h : ∀ c ∈ s.params.faultCodes, c.fault ≠ f) :
    s.faultCode f = (vectorOf f).extractLsb' 0 4 := by
  have hnone : (s.params.faultCodes.find? fun c => c.fault == f) = none :=
    List.find?_eq_none.mpr fun c hc => by rw [beq_iff_eq]; exact h c hc
  rw [State.faultCode, hnone]

/-- The code of one it lists. -/
theorem State.faultCode_of_listed {s : State} {f : FaultKind} {earlier later : List FaultCode} {code : BitVec 4}
    (hlist : s.params.faultCodes = earlier ++ { fault := f, code := code } :: later)
    (hfirst : ∀ c ∈ earlier, c.fault ≠ f) : s.faultCode f = code := by
  have hsome := find?_key_of_first FaultCode.fault { fault := f, code := code } later hfirst
  rw [State.faultCode, hlist, hsome]

/-- A device address reads as the word the device presents there. -/
theorem State.readWord_of_presented {s : State} {a : Addr} {earlier later : List DeviceWord} {v : Word}
    (hdev : s.isDevice a = true) (hlist : s.deviceWords = earlier ++ { addr := a, value := v } :: later)
    (hfirst : ∀ d ∈ earlier, d.addr ≠ a) : s.readWord a = v := by
  have hsome := find?_key_of_first DeviceWord.addr { addr := a, value := v } later hfirst
  rw [State.readWord, if_pos hdev, State.deviceRead, hlist, hsome]

/-! ### Vectors -/

/-- The entry of a vector is at twice its id. -/
theorem vectorAddr_toNat (v : BitVec 8) : (vectorAddr v).toNat = 2 * v.toNat := by
  have hlt := v.isLt
  rw [vectorAddr, BitVec.toNat_ofNat, Nat.mod_eq_of_lt (by omega)]

/-- A vector that is not readable does not read. -/
theorem State.readVector_of_unreadable {s : State} {v : BitVec 8} (h : ¬s.vectorReadable v) : s.readVector v = none :=
  Option.eq_none_iff_forall_ne_some.mpr fun _ hread => h (State.vectorReadable_of_readVector hread)

/-- An entry through it stops. -/
theorem enterException_of_unreadable {s : State} {v : BitVec 8} (l : Fin 8) (k : Fin 7) (ret : BitVec 32)
    (h : ¬s.vectorReadable v) : enterException v l k ret s = .fault .vectorBusError := by
  rw [enterException, State.readVector_of_unreadable h]

/-- Settles O6. -/
theorem faultEntry : Obligations.FaultEntry :=
  ⟨fun _ phase bus ret _ hlevel hread => takeFault_first phase bus ret hlevel hread,
    fun _ l k ret _ hread => enterException_of_unreadable l k ret hread, vectorAddr_toNat,
    fun _ _ => ⟨State.faultCode_of_unlisted, fun _ _ _ => State.faultCode_of_listed⟩, rfl, rfl, rfl, rfl, rfl, rfl⟩

/-! ### Software reset -/

/-- The state RSET leaves when it goes to `target`. -/
def State.resetTo (s : State) (target : BitVec 32) : State :=
  ({ s with level := 0, waiting := false, pending := Pending.none }.setReg .sr 0).setPc target

/-- RSET with a vector 0x00 that can be read. -/
theorem callRset_of_readable {s : State} (h : s.vectorReadable 0x00#8) :
    callRset s = .next (s.resetTo (s.vectorTarget 0x00#8)) := by
  rw [callRset, State.readVector_of_readable h]
  rfl

/-- RSET with one that cannot. -/
theorem callRset_of_unreadable {s : State} (h : ¬s.vectorReadable 0x00#8) : callRset s = .fault .vectorBusError := by
  rw [callRset, State.readVector_of_unreadable h]

/-- A software reset changes `sr` and the program counter of the registers. -/
theorem State.regsKept_resetTo (s : State) (target : BitVec 32) :
    regsKept [.sr, .ph, .pl] s (s.resetTo target) := by
  intro r hr
  simp only [List.mem_cons, List.not_mem_nil, or_false, not_or] at hr
  simp [State.resetTo, RegFile.get_set, hr]

/-- The call word of RSET reaches the operation in supervisor mode, on the state after fetch with the call word in the cause
register. -/
theorem copCall_rset (par : BitVec 8) {s : State} (hsup : s.protectedMode = false) :
    copCall (0x1B#8 ++ par) s = callRset { s.advance with cause := 0x1B#8 ++ par } := by
  obtain ⟨hunit, hop, -⟩ := callWord_fields 0x1B#8 par
  have hid : (0x1B#8).extractLsb' 4 4 = 0x1#4 := rfl
  have hcode : (0x1B#8).extractLsb' 0 4 = 0xB#4 := rfl
  have hpresent : s.unitPresent 0x1#4 = true := rfl
  simp [copCall, hunit, hop, hid, hcode, hpresent, hsup]

/-- Settles O52. -/
theorem softwareReset : Obligations.SoftwareReset := by
  intro f s hc hsup
  have hexec : exec (.rset f) s = callRset { s.advance with cause := 0x1B#8 ++ f.par } :=
    (conditional_of_holds hc).trans (copCall_rset f.par hsup)
  refine ⟨fun hread => ⟨_, hexec.trans (callRset_of_readable hread), State.setPc_pc _ _, rfl, rfl, rfl, rfl, ?regs,
    ⟨fun _ => rfl, rfl⟩, rfl, rfl, ⟨rfl, rfl, rfl, rfl, rfl, rfl⟩⟩, fun hread =>
    hexec.trans (callRset_of_unreadable hread)⟩
  case regs =>
    have hreset := s.onlyRegs_advance.regs.trans (State.regsKept_resetTo s.advance (s.vectorTarget 0x00#8))
    exact hreset.mono (by decide)

end Sys2Proof.Machine
end

section
/-! PROOF. STOR and LOAD when no check stops them: the state each leaves, and what it stored or loaded. -/

namespace Sys2Proof.Machine

/-! ### STOR -/

section
variable {s : State} {pr : Pair} {off : Word} (data : Word)

theorem storeWord_completes (htrap : s.offsetTraps (s.advance.regs.get (pairLow pr)) off = false)
    (hbus : s.busError (s.advance.effectiveAddr pr off) .store = false) :
    storeWord pr off data s = .next (s.advance.writeWord (s.advance.effectiveAddr pr off) data) := by
  simp only [storeWord, State.advance_offsetTraps, State.advance_busError, htrap, hbus, Bool.false_eq_true, if_false]

theorem storePreDec_completes (hdec : s.offsetTraps (s.advance.regs.get (pairLow pr)) (-1) = false)
    (htrap : s.offsetTraps (s.advance.regs.get (pairLow pr) - 1) off = false)
    (hbus : s.busError (s.advance.preDecAddr pr off) .store = false) :
    storePreDec pr off data s = .next ((s.advance.writeWord (s.advance.preDecAddr pr off) data).setReg (pairLow pr)
      (s.advance.regs.get (pairLow pr) - 1)) := by
  simp only [storePreDec, State.advance_offsetTraps, State.advance_busError, hdec, htrap, hbus, Bool.or_self,
    Bool.false_eq_true, if_false]

end

/-- Past the instruction, the store of a word is what STOR is to leave. -/
theorem State.stored_advance {s : State} (w : Addr) (v : Word) (hwf : s.mem.wf = true) :
    Stored w v s (s.advance.writeWord w v) :=
  have hstored := State.storedAt_writeWord (s := s.advance) w v hwf
  have hregs := s.advance.regsKept_writeWord w v
  { stored := ⟨hstored.value, hstored.memory, hstored.quiet, hstored.sent⟩
    next := movedOn_of_regsKept hregs List.not_mem_nil
    regs := s.onlyRegs_advance.regs.trans hregs
    unit := s.onlyRegs_advance.unit.trans (s.advance.unitKept_writeWord w v) }

/-- With the decrement after it, what STOR with pre-decrement is to leave. -/
theorem State.storedPreDec_advance {s : State} (pr : Pair) (w : Addr) (v : Word) (hwf : s.mem.wf = true) :
    StoredPreDec pr w v s
      ((s.advance.writeWord w v).setReg (pairLow pr) (s.advance.regs.get (pairLow pr) - 1)) :=
  have hstored := State.storedAt_writeWord (s := s.advance) w v hwf
  have hlow := (s.advance.writeWord w v).onlyRegs_setReg (pairLow pr) (s.advance.regs.get (pairLow pr) - 1)
  have hregs := (s.advance.regsKept_writeWord w v).trans hlow.regs
  { stored := ⟨hstored.value, hstored.memory, hstored.quiet, hstored.sent⟩
    decrement := RegFile.get_set_self _ _ _
    next := fun hp => movedOn_of_regsKept hregs (List.mem_singleton.not.mpr (pl_ne_pairLow hp))
    regs := s.onlyRegs_advance.regs.trans hregs
    unit := (s.onlyRegs_advance.unit.trans (s.advance.unitKept_writeWord w v)).trans hlow.unit }

/-- Settles O38: in either format STOR is one store, past the instruction. -/
theorem storeCompletes : Obligations.StoreCompletes := by
  intro s hwf
  refine ⟨?off, ?idx⟩
  case off =>
    rintro f ea hc rfl htrap hbus
    exact ⟨_, (conditional_of_holds hc).trans (storeWord_completes _ htrap hbus), State.stored_advance _ _ hwf⟩
  case idx =>
    rintro f ea hc hsh rfl htrap hbus
    exact ⟨_, (conditional_withShiftType_of_holds hc hsh).trans (storeWord_completes _ htrap hbus),
      State.stored_advance _ _ hwf⟩

/-- Settles O39: the same with the decrement of the pair after the store. -/
theorem storePreDecCompletes : Obligations.StorePreDecCompletes := by
  intro s hwf
  refine ⟨?off, ?idx⟩
  case off =>
    rintro f ea lo hc rfl rfl hdec htrap hbus
    exact ⟨_, (conditional_of_holds hc).trans (storePreDec_completes _ hdec htrap hbus),
      State.storedPreDec_advance _ _ _ hwf⟩
  case idx =>
    rintro f ea lo hc hsh rfl rfl hdec htrap hbus
    exact ⟨_, (conditional_withShiftType_of_holds hc hsh).trans (storePreDec_completes _ hdec htrap hbus),
      State.storedPreDec_advance _ _ _ hwf⟩

/-! ### LOAD -/

section
variable {s : State} {dest : Reg} {pr : Pair} {off : Word} (g : Word → Word)

theorem loadWord_completes (hw : s.writeForbidden dest = false)
    (htrap : s.offsetTraps (s.advance.regs.get (pairLow pr)) off = false)
    (hbus : s.busError (s.advance.effectiveAddr pr off) .load = false) :
    loadWord dest pr off g s =
      .next (s.advance.writeReg dest (g (s.readWord (s.advance.effectiveAddr pr off)))) := by
  simp only [loadWord, State.advance_offsetTraps, State.advance_busError, State.readWord_advance, hw, htrap, hbus,
    Bool.false_eq_true, if_false]

theorem loadPostInc_completes (hw : s.writeForbidden dest = false)
    (htrap : s.offsetTraps (s.advance.regs.get (pairLow pr)) off = false)
    (hinc : s.offsetTraps (s.advance.regs.get (pairLow pr)) 1 = false)
    (hbus : s.busError (s.advance.effectiveAddr pr off) .load = false) :
    loadPostInc dest pr off g s =
      .next ((s.advance.writeReg dest (g (s.readWord (s.advance.effectiveAddr pr off)))).setReg (pairLow pr)
        (if dest = pairLow pr then Config.freePostIncrement s.freeCount
        else s.advance.regs.get (pairLow pr) + 1)) := by
  simp only [loadPostInc, State.advance_offsetTraps, State.advance_busError, State.readWord_advance, hw, htrap, hinc, hbus,
    Bool.or_self, Bool.false_eq_true, if_false]

end

/-- A write of a register past the instruction is a write on the state before it. -/
theorem State.writtenTo_advance (s : State) (dest : Reg) (v : Word) : WrittenTo dest v s (s.advance.writeReg dest v) :=
  (s.advance.writtenTo_writeReg dest v).congr rfl rfl

/-- Past the instruction, the write of a register is what LOAD is to leave. -/
theorem State.loaded_advance (s : State) (dest : Reg) (v : Word) : Loaded dest v s (s.advance.writeReg dest v) :=
  have hwrite := s.advance.onlyRegs_writeReg dest v
  have hframe := s.onlyRegs_advance.trans hwrite
  { value := s.writtenTo_advance dest v
    next := fun hd => movedOn_of_regsKept hwrite.regs (List.mem_singleton.not.mpr hd.symm)
    regs := hframe.regs
    memory := hframe.memory
    unit := hframe.unit }

/-- With the increment after it, what LOAD with post-increment is to leave. -/
theorem State.loadedPostInc_advance (s : State) (dest : Reg) (pr : Pair) (v lo : Word)
    (hlo : dest ≠ pairLow pr → lo = s.advance.regs.get (pairLow pr) + 1) :
    LoadedPostInc dest pr v s ((s.advance.writeReg dest v).setReg (pairLow pr) lo) :=
  have hwrite := (s.advance.onlyRegs_writeReg dest v).trans (State.onlyRegs_setReg _ (pairLow pr) lo)
  have hframe := s.onlyRegs_advance.trans hwrite
  { value := fun hd => (s.writtenTo_advance dest v).congr rfl (RegFile.get_set_ne _ lo hd)
    increment := fun hd => (RegFile.get_set_self _ _ lo).trans (hlo hd)
    next := fun hd hp => movedOn_of_regsKept hwrite.regs (by simp [pl_ne_pairLow hp, hd.symm])
    regs := hframe.regs.mono (List.Perm.swap _ _ _).subset
    memory := hframe.memory
    unit := hframe.unit }

/-- A device is mapped where a range covers the address. -/
theorem State.isDevice_iff (s : State) (a : Addr) :
    s.isDevice a = true ↔ ∃ d ∈ s.params.devices, d.first ≤ a ∧ a ≤ d.last := by
  simp only [State.isDevice, List.any_eq_true, DeviceRange.covers, Bool.and_eq_true, decide_eq_true_iff]

/-- A plain address reads as memory's word. -/
theorem State.readWord_of_plain {s : State} {a : Addr} (h : s.isDevice a = false) : s.readWord a = s.mem.readWord a := by
  rw [State.readWord, h]
  rfl

/-- Settles O40: in either format LOAD is one write of a register, past the instruction. -/
theorem loadCompletes : Obligations.LoadCompletes := by
  intro s
  refine ⟨?off, ?idx, fun a => ⟨s.isDevice_iff a, State.readWord_of_plain, rfl, fun _ _ _ => State.readWord_of_presented⟩⟩
  case off =>
    rintro f ea hc hw rfl htrap hbus
    exact ⟨_, (conditional_of_holds hc).trans (loadWord_completes id hw htrap hbus), s.loaded_advance f.reg _⟩
  case idx =>
    rintro f ea hc hsh hw rfl htrap hbus
    exact ⟨_, (conditional_withShiftType_of_holds hc hsh).trans (loadWord_completes _ hw htrap hbus),
      s.loaded_advance f.r1 _⟩

/-- Settles O41: the same with the increment of the pair after the write. -/
theorem loadPostIncCompletes : Obligations.LoadPostIncCompletes := by
  intro s
  refine ⟨?off, ?idx⟩
  case off =>
    rintro f ea lo hc hw rfl rfl htrap hinc hbus
    exact ⟨_, (conditional_of_holds hc).trans (loadPostInc_completes id hw htrap hinc hbus),
      s.loadedPostInc_advance f.reg f.pair _ _ fun hd => if_neg hd⟩
  case idx =>
    rintro f ea lo hc hsh hw rfl rfl htrap hinc hbus
    exact ⟨_, (conditional_withShiftType_of_holds hc hsh).trans (loadPostInc_completes _ hw htrap hinc hbus),
      s.loadedPostInc_advance f.r1 f.pair _ _ fun hd => if_neg hd⟩

end Sys2Proof.Machine
end

section
/-! PROOF. Address arithmetic that traps: the Segment Overflow Fault in every instruction that forms an address. -/

namespace Sys2Proof.Machine

/-- A destination of LDEA that is the high register of a pair names that pair. -/
theorem pairOfHigh_of_mem {r : Reg} (h : r ∈ [Reg.lh, .ah, .sh, .ph]) : ∃ pr, pairOfHigh r = some pr := by
  simp only [List.mem_cons, List.not_mem_nil, or_false] at h
  obtain rfl | rfl | rfl | rfl := h <;> exact ⟨_, rfl⟩

/-! ### The check in each shared operation -/

section
variable {s : State} {pr : Pair} {off : Word}

theorem storePreDec_overflows (data : Word)
    (h : s.offsetTraps (s.advance.regs.get (pairLow pr)) (-1) = true ∨
      s.offsetTraps (s.advance.regs.get (pairLow pr) - 1) off = true) :
    storePreDec pr off data s = raiseFault .segmentOverflow 3 0 s := if_pos (by simpa using h)

theorem loadPostInc_overflows {dest : Reg} (g : Word → Word) (hw : s.writeForbidden dest = false)
    (h : s.offsetTraps (s.advance.regs.get (pairLow pr)) off = true ∨
      s.offsetTraps (s.advance.regs.get (pairLow pr)) 1 = true) :
    loadPostInc dest pr off g s = raiseFault .segmentOverflow 3 0 s := by
  rw [loadPostInc, hw, if_neg Bool.false_ne_true]
  exact if_pos (by simpa using h)

variable (htrap : s.offsetTraps (s.advance.regs.get (pairLow pr)) off = true)
include htrap

theorem storeWord_overflows (data : Word) : storeWord pr off data s = raiseFault .segmentOverflow 3 0 s :=
  if_pos ((s.advance_offsetTraps _ off).trans htrap)

theorem loadWord_overflows {dest : Reg} (g : Word → Word) (hw : s.writeForbidden dest = false) :
    loadWord dest pr off g s = raiseFault .segmentOverflow 3 0 s := by
  rw [loadWord, hw]
  exact if_pos ((s.advance_offsetTraps _ off).trans htrap)

theorem withOffset_overflows (k : State → Result) : withOffset pr off s k = raiseFault .segmentOverflow 3 0 s :=
  if_pos ((s.advance_offsetTraps _ off).trans htrap)

theorem branch_overflows (hp : pr = .p) : branch pr off s = raiseFault .segmentOverflow 3 0 s := by
  subst hp
  rw [branch, if_pos rfl, withOffset_overflows htrap]

variable (hsup : s.protectedMode = false)
include hsup

theorem ldeaInto_overflows (dst : Pair) : ldeaInto dst pr off s = raiseFault .segmentOverflow 3 0 s := by
  rw [ldeaInto, hsup, if_neg Bool.false_ne_true, withOffset_overflows htrap]

theorem jumpSubroutine_overflows : jumpSubroutine pr off s = raiseFault .segmentOverflow 3 0 s := by
  rw [jumpSubroutine, hsup, if_neg Bool.false_ne_true, withOffset_overflows htrap]

theorem branchSubroutine_overflows (hp : pr = .p) : branchSubroutine pr off s = raiseFault .segmentOverflow 3 0 s := by
  subst hp
  rw [branchSubroutine, hsup, if_neg (not_not_intro rfl), if_neg Bool.false_ne_true, withOffset_overflows htrap]

theorem ldea_overflows {dest : Reg} (hdest : dest ∈ [Reg.lh, .ah, .sh, .ph]) :
    ldea dest pr off s = raiseFault .segmentOverflow 3 0 s := by
  obtain ⟨dst, hdst⟩ := pairOfHigh_of_mem hdest
  rw [ldea, hdst]
  exact ldeaInto_overflows htrap hsup dst

end

/-- The check of the shift fields, in a control instruction whose condition holds. -/
theorem conditional_unshifted_of_holds {c : Cond} {sh : Shift} {k : Result} {s : State}
    (hc : condHolds c s.flags = true) (hzero : sh = { type := .nul, amount := .literal 0 }) :
    conditional c s (unshifted sh k) = k := (conditional_of_holds hc).trans (unshifted_of_zero hzero)

/-- Settles O42: each instruction is the fault its check raises. -/
theorem segmentOverflowFault : Obligations.SegmentOverflowFault := by
  intro s hcan traps
  have fault : ∀ {i : Instr}, exec i s = raiseFault .segmentOverflow 3 0 s → traps i :=
    fun hexec => show faults _ _ _ _ _ from hexec ▸ faults_raiseFault 3 0 hcan
  refine ⟨?off, ?idx, fun hsup => ⟨?jumpOff, ?jumpIdx⟩⟩
  case off =>
    rintro f lo hc rfl
    have runs : ∀ k, conditional f.cond s k = k := fun _ => conditional_of_holds hc
    refine ⟨fun h => ⟨fault ((runs _).trans (storeWord_overflows h _)), fun hp => ?branch, fun hw => ⟨?load, ?postInc⟩,
      fun hsup => ⟨?jump, fun hdest => ?lea, fun hp => ?link⟩⟩, fun h hw => ?increment, fun h => ?preDec⟩
    case branch => exact fault ((runs _).trans (branch_overflows h hp))
    case load => exact fault ((runs _).trans (loadWord_overflows h id hw))
    case postInc => exact fault ((runs _).trans (loadPostInc_overflows id hw (.inl h)))
    case jump => exact fault ((runs _).trans (jumpSubroutine_overflows h hsup))
    case lea => exact fault ((runs _).trans (ldea_overflows h hsup hdest))
    case link => exact fault ((runs _).trans (branchSubroutine_overflows h hsup hp))
    case increment => exact fault ((runs _).trans (loadPostInc_overflows id hw (.inr h)))
    case preDec => exact fault ((runs _).trans (storePreDec_overflows _ h))
  case idx =>
    rintro f lo off hc hsh rfl rfl
    have runs : ∀ k, conditional f.cond s (withShiftType f.shift k) = k :=
      fun _ => conditional_withShiftType_of_holds hc hsh
    refine ⟨fun h => ⟨fault ((runs _).trans (storeWord_overflows h _)), fun hw => ⟨?load, ?postInc⟩,
      fun hzero => ⟨fun hp => ?branch, fun hsup => ⟨?jump, fun hdest => ?lea, fun hp => ?link⟩⟩⟩,
      fun h hw => ?increment, fun h => ?preDec⟩
    case load => exact fault ((runs _).trans (loadWord_overflows h _ hw))
    case postInc => exact fault ((runs _).trans (loadPostInc_overflows _ hw (.inl h)))
    case branch => exact fault ((conditional_unshifted_of_holds hc hzero).trans (branch_overflows h hp))
    case jump => exact fault ((conditional_unshifted_of_holds hc hzero).trans (jumpSubroutine_overflows h hsup))
    case lea => exact fault ((conditional_unshifted_of_holds hc hzero).trans (ldea_overflows h hsup hdest))
    case link => exact fault ((conditional_unshifted_of_holds hc hzero).trans (branchSubroutine_overflows h hsup hp))
    case increment => exact fault ((runs _).trans (loadPostInc_overflows _ hw (.inr h)))
    case preDec => exact fault ((runs _).trans (storePreDec_overflows _ h))
  case jumpOff => exact fun f hc h => fault ((conditional_of_holds hc).trans (ldeaInto_overflows h hsup .p))
  case jumpIdx =>
    exact fun f hc hzero h =>
      fault ((conditional_unshifted_of_holds hc hzero).trans (ldeaInto_overflows h hsup .p))

end Sys2Proof.Machine
end

section
/-! PROOF. The fields of a word: each code is read back, each field stands where the decoder looks for it, and the fields
of a word together are the word. -/

namespace Sys2Proof

/-! ### Codes -/

@[simp] theorem Reg.ofBits_bits (r : Reg) : Reg.ofBits r.bits = r := by cases r <;> rfl

@[simp] theorem Cond.ofBits_bits (c : Cond) : Cond.ofBits c.bits = c := by cases c <;> rfl

@[simp] theorem Pair.ofBits_bits (pr : Pair) : Pair.ofBits pr.bits = pr := by cases pr <;> rfl

@[simp] theorem StatusSel.ofBits_bits (sel : StatusSel) : StatusSel.ofBits sel.bits = sel := by cases sel <;> rfl

@[simp] theorem ShiftType.ofBits_bits (t : ShiftType) : ShiftType.ofBits t.bits = t := by cases t <;> rfl

@[simp] theorem ShiftAmount.ofBits_bits (n : ShiftAmount) : ShiftAmount.ofBits n.soBit n.saBits = n := by
  cases n with
  | literal n => rfl
  | register r => exact congrArg ShiftAmount.register r.ofBits_bits

@[simp] theorem Reg.bits_ofBits : ∀ b, (Reg.ofBits b).bits = b := by decide

@[simp] theorem Cond.bits_ofBits : ∀ b, (Cond.ofBits b).bits = b := by decide

@[simp] theorem Pair.bits_ofBits : ∀ b, (Pair.ofBits b).bits = b := by decide

@[simp] theorem StatusSel.bits_ofBits : ∀ b, (StatusSel.ofBits b).bits = b := by decide

@[simp] theorem ShiftType.bits_ofBits : ∀ b, (ShiftType.ofBits b).bits = b := by decide

@[simp] theorem ShiftAmount.soBit_ofBits (so : BitVec 1) (sa : BitVec 4) : (ShiftAmount.ofBits so sa).soBit = so := by
  obtain rfl | rfl := so.eq_zero_or_eq_one <;> rfl

@[simp] theorem ShiftAmount.saBits_ofBits (so : BitVec 1) (sa : BitVec 4) : (ShiftAmount.ofBits so sa).saBits = sa := by
  obtain rfl | rfl := so.eq_zero_or_eq_one
  · rfl
  · exact Reg.bits_ofBits sa

/-! ### Positions (30_encoding.md R103 to R105) -/

theorem encImm_fields (op : BitVec 6) (r : Reg) (imm : Word) (af : BitVec 2) (c : Cond) :
    (encImm op r imm af c).extractLsb' 22 4 = r.bits ∧ (encImm op r imm af c).extractLsb' 6 16 = imm ∧
    (encImm op r imm af c).extractLsb' 4 2 = af ∧ (encImm op r imm af c).extractLsb' 0 4 = c.bits := by
  unfold encImm
  refine ⟨?_, ?_, ?_, ?_⟩ <;> repeat rw [BitVec.extractLsb'_append_eq_of_le (by decide)]
  all_goals exact BitVec.extractLsb'_append_eq_right

theorem encShort_fields (op : BitVec 6) (r : Reg) (imm8 : BitVec 8) (sh : Shift) (af : BitVec 2) (c : Cond) :
    (encShort op r imm8 sh af c).extractLsb' 22 4 = r.bits ∧ (encShort op r imm8 sh af c).extractLsb' 14 8 = imm8 ∧
    (encShort op r imm8 sh af c).extractLsb' 13 1 = sh.amount.soBit ∧
    (encShort op r imm8 sh af c).extractLsb' 10 3 = sh.type.bits ∧
    (encShort op r imm8 sh af c).extractLsb' 6 4 = sh.amount.saBits ∧
    (encShort op r imm8 sh af c).extractLsb' 4 2 = af ∧ (encShort op r imm8 sh af c).extractLsb' 0 4 = c.bits := by
  unfold encShort
  refine ⟨?_, ?_, ?_, ?_, ?_, ?_, ?_⟩ <;> repeat rw [BitVec.extractLsb'_append_eq_of_le (by decide)]
  all_goals exact BitVec.extractLsb'_append_eq_right

theorem encReg_fields (op : BitVec 6) (rd ra rb : Reg) (sh : Shift) (af : BitVec 2) (c : Cond) :
    (encReg op rd ra rb sh af c).extractLsb' 22 4 = rd.bits ∧ (encReg op rd ra rb sh af c).extractLsb' 18 4 = ra.bits ∧
    (encReg op rd ra rb sh af c).extractLsb' 14 4 = rb.bits ∧
    (encReg op rd ra rb sh af c).extractLsb' 13 1 = sh.amount.soBit ∧
    (encReg op rd ra rb sh af c).extractLsb' 10 3 = sh.type.bits ∧
    (encReg op rd ra rb sh af c).extractLsb' 6 4 = sh.amount.saBits ∧
    (encReg op rd ra rb sh af c).extractLsb' 4 2 = af ∧ (encReg op rd ra rb sh af c).extractLsb' 0 4 = c.bits := by
  unfold encReg
  refine ⟨?_, ?_, ?_, ?_, ?_, ?_, ?_, ?_⟩ <;> repeat rw [BitVec.extractLsb'_append_eq_of_le (by decide)]
  all_goals exact BitVec.extractLsb'_append_eq_right

/-! ### The decoder's fields of an encoded word -/

theorem immAluFields_encImm (op : BitVec 6) (r : Reg) (imm : Word) (sel : StatusSel) (c : Cond) :
    immAluFields (encImm op r imm sel.bits c) = { reg := r, imm := imm, sel := sel, cond := c } := by
  obtain ⟨hreg, himm, haf, hcond⟩ := encImm_fields op r imm sel.bits c
  simp [immAluFields, selField, condField, hreg, himm, haf, hcond]

theorem immMemFields_encImm (op : BitVec 6) (r : Reg) (imm : Word) (pr : Pair) (c : Cond) :
    immMemFields (encImm op r imm pr.bits c) = { reg := r, imm := imm, pair := pr, cond := c } := by
  obtain ⟨hreg, himm, haf, hcond⟩ := encImm_fields op r imm pr.bits c
  simp [immMemFields, pairField, condField, hreg, himm, haf, hcond]

theorem shortAluFields_encShort (op : BitVec 6) (r : Reg) (imm8 : BitVec 8) (sh : Shift) (sel : StatusSel) (c : Cond) :
    shortAluFields (encShort op r imm8 sh sel.bits c) =
      { reg := r, imm8 := imm8, shift := sh, sel := sel, cond := c } := by
  obtain ⟨hreg, himm, hso, hst, hsa, haf, hcond⟩ := encShort_fields op r imm8 sh sel.bits c
  simp [shortAluFields, shiftField, selField, condField, hreg, himm, hso, hst, hsa, haf, hcond]

theorem regAluFields_encReg (op : BitVec 6) (rd ra rb : Reg) (sh : Shift) (sel : StatusSel) (c : Cond) :
    regAluFields (encReg op rd ra rb sh sel.bits c) =
      { r1 := rd, r2 := ra, r3 := rb, shift := sh, sel := sel, cond := c } := by
  obtain ⟨h1, h2, h3, hso, hst, hsa, haf, hcond⟩ := encReg_fields op rd ra rb sh sel.bits c
  simp [regAluFields, shiftField, selField, condField, h1, h2, h3, hso, hst, hsa, haf, hcond]

theorem regMemFields_encReg (op : BitVec 6) (rd ra rb : Reg) (sh : Shift) (pr : Pair) (c : Cond) :
    regMemFields (encReg op rd ra rb sh pr.bits c) =
      { r1 := rd, r2 := ra, r3 := rb, shift := sh, pair := pr, cond := c } := by
  obtain ⟨h1, h2, h3, hso, hst, hsa, haf, hcond⟩ := encReg_fields op rd ra rb sh pr.bits c
  simp [regMemFields, shiftField, pairField, condField, h1, h2, h3, hso, hst, hsa, haf, hcond]

/-! ### A word from its fields -/

theorem encImm_of_word (w : InstrWord) :
    encImm (opcodeField w) (Reg.ofBits (w.extractLsb' 22 4)) (w.extractLsb' 6 16) (w.extractLsb' 4 2) (condField w) = w := by
  simp only [encImm, opcodeField, condField, Reg.bits_ofBits, Cond.bits_ofBits]
  repeat rw [BitVec.extractLsb'_append_extractLsb'_eq_extractLsb' (by decide)]
  exact BitVec.extractLsb'_eq_self

theorem encShort_of_word (w : InstrWord) :
    encShort (opcodeField w) (Reg.ofBits (w.extractLsb' 22 4)) (w.extractLsb' 14 8) (shiftField w) (w.extractLsb' 4 2)
      (condField w) = w := by
  simp only [encShort, opcodeField, shiftField, condField, Reg.bits_ofBits, ShiftAmount.soBit_ofBits,
    ShiftAmount.saBits_ofBits, ShiftType.bits_ofBits, Cond.bits_ofBits]
  repeat rw [BitVec.extractLsb'_append_extractLsb'_eq_extractLsb' (by decide)]
  exact BitVec.extractLsb'_eq_self

theorem encReg_of_word (w : InstrWord) :
    encReg (opcodeField w) (Reg.ofBits (w.extractLsb' 22 4)) (Reg.ofBits (w.extractLsb' 18 4))
      (Reg.ofBits (w.extractLsb' 14 4)) (shiftField w) (w.extractLsb' 4 2) (condField w) = w := by
  simp only [encReg, opcodeField, shiftField, condField, Reg.bits_ofBits, ShiftAmount.soBit_ofBits,
    ShiftAmount.saBits_ofBits, ShiftType.bits_ofBits, Cond.bits_ofBits]
  repeat rw [BitVec.extractLsb'_append_extractLsb'_eq_extractLsb' (by decide)]
  exact BitVec.extractLsb'_eq_self

section
variable {w : InstrWord} {op : BitVec 6} (hop : (opcodeField w).toNat = op.toNat)
include hop

theorem encImmAlu_immAluFields : encImmAlu op (immAluFields w) = w := by
  have hw := encImm_of_word w
  rwa [BitVec.eq_of_toNat_eq hop, ← StatusSel.bits_ofBits (w.extractLsb' 4 2)] at hw

theorem encImmMem_immMemFields : encImmMem op (immMemFields w) = w := by
  have hw := encImm_of_word w
  rwa [BitVec.eq_of_toNat_eq hop, ← Pair.bits_ofBits (w.extractLsb' 4 2)] at hw

theorem encShortAlu_shortAluFields : encShortAlu op (shortAluFields w) = w := by
  have hw := encShort_of_word w
  rwa [BitVec.eq_of_toNat_eq hop, ← StatusSel.bits_ofBits (w.extractLsb' 4 2)] at hw

theorem encRegAlu_regAluFields : encRegAlu op (regAluFields w) = w := by
  have hw := encReg_of_word w
  rwa [BitVec.eq_of_toNat_eq hop, ← StatusSel.bits_ofBits (w.extractLsb' 4 2)] at hw

theorem encRegMem_regMemFields : encRegMem op (regMemFields w) = w := by
  have hw := encReg_of_word w
  rwa [BitVec.eq_of_toNat_eq hop, ← Pair.bits_ofBits (w.extractLsb' 4 2)] at hw

end

end Sys2Proof
end

section
/-! PROOF. The decoder and the encoder are inverse to each other: on the instructions in their one spelling (log 33), and on
every word. -/

namespace Sys2Proof

/-! ### Words that carry a name of their own (log 33) -/

/-- The instruction is a spelling of the word, the one the decoder is to give. -/
def Spells (w : InstrWord) (i : Instr) : Prop := encodeWord i = w ∧ wellFormed i = true

theorem wellFormed_addi_iff (f : ImmAlu) :
    wellFormed (.addi f) = true ↔ f ≠ { reg := .sr, imm := 0, sel := .noUpdate, cond := .al } := by
  simp [wellFormed]

theorem wellFormed_ldeaOff_iff (f : ImmMem) : wellFormed (.ldeaOff f) = true ↔ f.reg ≠ .ph := by simp [wellFormed]

theorem wellFormed_ldeaIdx_iff (f : RegMem) : wellFormed (.ldeaIdx f) = true ↔ f.r1 ≠ .ph := by simp [wellFormed]

theorem wellFormed_ljmpOff_iff (f : JumpOff) :
    wellFormed (.ljmpOff f) = true ↔ ¬(f.imm = 0 ∧ f.pair = .l ∧ f.cond = .al) := by
  obtain ⟨imm, pair, cond⟩ := f
  simp [wellFormed]

theorem wellFormed_addiShort_iff (f : ShortAlu) :
    wellFormed (.addiShort f) = true ↔ ¬(f.imm8 = 0 ∧ f.sel = .fromShift) := by
  simp [wellFormed, imp_iff_not_or]

theorem wellFormed_addr_iff (f : RegAlu) : wellFormed (.addr f) = true ↔ f.sel ≠ .fromShift := by simp [wellFormed]

theorem wellFormed_copi_iff (f : ImmAlu) :
    wellFormed (.copi f) = true ↔
      (f.imm.extractLsb' 8 8).toNat ∉ [0x11, 0x19, 0x1A, 0x1B, 0x1C, 0x1D] := by
  simp [wellFormed, isNamedCall, ← BitVec.toNat_inj, and_assoc]

section
variable {w : InstrWord}

theorem spells_nameAddi {f : ImmAlu} (h : encImmAlu 0x00#6 f = w) : Spells w (nameAddi f) := by
  unfold nameAddi
  split
  case isTrue hf => exact ⟨(congrArg (encImmAlu 0x00#6) hf).symm.trans h, rfl⟩
  case isFalse hf => exact ⟨h, (wellFormed_addi_iff f).mpr hf⟩

theorem spells_nameLdeaOff {f : ImmMem} (h : encImmMem 0x18#6 f = w) : Spells w (nameLdeaOff f) := by
  obtain ⟨reg, imm, pair, cond⟩ := f
  unfold nameLdeaOff
  split_ifs with hreg hrets
  · obtain ⟨rfl, rfl, rfl⟩ := hrets
    cases hreg
    exact ⟨h, rfl⟩
  · cases hreg
    exact ⟨h, (wellFormed_ljmpOff_iff _).mpr hrets⟩
  · exact ⟨h, (wellFormed_ldeaOff_iff _).mpr hreg⟩

theorem spells_nameLdeaIdx {f : RegMem} (h : encRegMem 0x19#6 f = w) : Spells w (nameLdeaIdx f) := by
  unfold nameLdeaIdx
  split
  case isTrue hreg => exact ⟨by rwa [encRegMem, hreg] at h, rfl⟩
  case isFalse hreg => exact ⟨h, (wellFormed_ldeaIdx_iff f).mpr hreg⟩

theorem spells_nameAddiShort {f : ShortAlu} (h : encShortAlu 0x20#6 f = w) : Spells w (nameAddiShort f) := by
  obtain ⟨reg, imm8, shift, sel, cond⟩ := f
  unfold nameAddiShort
  split_ifs with hshift hcount
  · obtain ⟨rfl, rfl⟩ := hshift
    exact ⟨h, hcount⟩
  · obtain ⟨rfl, rfl⟩ := hshift
    exact ⟨h, by simpa [wellFormed] using hcount⟩
  · exact ⟨h, (wellFormed_addiShort_iff _).mpr hshift⟩

theorem spells_nameAddr {f : RegAlu} (h : encRegAlu 0x30#6 f = w) : Spells w (nameAddr f) := by
  unfold nameAddr
  split
  case isTrue hsel => exact ⟨by rwa [encRegAlu, hsel] at h, rfl⟩
  case isFalse hsel => exact ⟨h, (wellFormed_addr_iff f).mpr hsel⟩

/-- A call word is its operation code over its parameter byte. -/
theorem callWord_of_code {v : Word} {code : BitVec 8} (h : (v.extractLsb' 8 8).toNat = code.toNat) :
    code ++ v.extractLsb' 0 8 = v :=
  BitVec.eq_of_toNat_eq h ▸ BitVec.extractLsb'_append_extractLsb'

theorem spells_nameCopi {f : ImmAlu} (h : encImmAlu 0x0F#6 f = w) : Spells w (nameCopi f) := by
  have named : ∀ {code : BitVec 8}, (f.imm.extractLsb' 8 8).toNat = code.toNat →
      encUnitCall code { reg := f.reg, par := f.imm.extractLsb' 0 8, sel := f.sel, cond := f.cond } = w := by
    intro code hcode
    rw [encUnitCall, callWord_of_code hcode]
    exact h
  unfold nameCopi
  split
  case h_7 => exact ⟨h, (wellFormed_copi_iff f).mpr (by simp_all)⟩
  all_goals exact ⟨named ‹_›, rfl⟩

end

/-- Settles O3: by the opcode, in the order of the map of 30_encoding.md R113. -/
theorem encodeOfDecode : Obligations.EncodeOfDecode := by
  intro w
  show Spells w (decodeWord w)
  unfold decodeWord
  split
  -- 0x00 to 0x0F
  next h => exact spells_nameAddi (encImmAlu_immAluFields h)
  iterate 14 next h => exact ⟨encImmAlu_immAluFields h, rfl⟩
  next h => exact spells_nameCopi (encImmAlu_immAluFields h)
  -- 0x10 to 0x1F
  iterate 4
    next h => exact ⟨encImmMem_immMemFields h, rfl⟩
    next h => exact ⟨encRegMem_regMemFields h, rfl⟩
  next h => exact spells_nameLdeaOff (encImmMem_immMemFields h)
  next h => exact spells_nameLdeaIdx (encRegMem_regMemFields h)
  iterate 3
    next h => exact ⟨encImmMem_immMemFields h, rfl⟩
    next h => exact ⟨encRegMem_regMemFields h, rfl⟩
  -- 0x20 to 0x2F
  next h => exact spells_nameAddiShort (encShortAlu_shortAluFields h)
  iterate 15 next h => exact ⟨encShortAlu_shortAluFields h, rfl⟩
  -- 0x30 to 0x3F
  next h => exact spells_nameAddr (encRegAlu_regAluFields h)
  iterate 14 next h => exact ⟨encRegAlu_regAluFields h, rfl⟩
  next =>
    have h : (opcodeField w).toNat = 0x3F := by
      have hlt := (opcodeField w).isLt
      simp only [imp_false] at *
      omega
    exact ⟨encRegAlu_regAluFields (op := 0x3F#6) h, rfl⟩

/-! ### Decoding an encoded instruction -/

theorem nameCopi_of_wellFormed {f : ImmAlu} (h : wellFormed (.copi f) = true) : nameCopi f = .copi f := by
  have hcode := (wellFormed_copi_iff f).mp h
  unfold nameCopi
  split
  case h_7 => rfl
  all_goals simp_all

/-- An instruction in its one spelling is read back from its word. -/
theorem decodeWord_encodeWord {i : Instr} (h : wellFormed i = true) : decodeWord (encodeWord i) = i := by
  cases i with
  | adci f | subi f | sbci f | andi f | orri f | xori f | loadImm f | undoc08 f | undoc09 f | cmpi f | undoc0B f | tsai f
  | undoc0D f | tsxi f =>
    rw [encodeWord, encImmAlu, decodeWord, Laws.opcodeField_encImm, immAluFields_encImm]
    rfl
  | storOff f | storPreOff f | loadOff f | loadPostOff f | branOff f | ljsrOff f | brsrOff f =>
    rw [encodeWord, encImmMem, decodeWord, Laws.opcodeField_encImm, immMemFields_encImm]
    rfl
  | storIdx f | storPreIdx f | loadIdx f | loadPostIdx f | branIdx f | ljsrIdx f | brsrIdx f =>
    rw [encodeWord, encRegMem, decodeWord, Laws.opcodeField_encReg, regMemFields_encReg]
    rfl
  | adciShort f | subiShort f | sbciShort f | andiShort f | orriShort f | xoriShort f | loadShort f | undoc28 f | undoc29 f
  | cmpiShort f | undoc2B f | tsaiShort f | undoc2D f | tsxiShort f | copiShort f =>
    rw [encodeWord, encShortAlu, decodeWord, Laws.opcodeField_encShort, shortAluFields_encShort]
    rfl
  | adcr f | subr f | sbcr f | andr f | orrr f | xorr f | loadReg f | undoc38 f | undoc39 f | cmpr f | undoc3B f | tsar f
  | undoc3D f | tsxr f | copr f =>
    rw [encodeWord, encRegAlu, decodeWord, Laws.opcodeField_encReg, regAluFields_encReg]
    rfl
  | addi f =>
    rw [encodeWord, encImmAlu, decodeWord, Laws.opcodeField_encImm, immAluFields_encImm]
    exact if_neg ((wellFormed_addi_iff f).mp h)
  | copi f =>
    rw [encodeWord, encImmAlu, decodeWord, Laws.opcodeField_encImm, immAluFields_encImm]
    exact nameCopi_of_wellFormed h
  | ldeaOff f =>
    rw [encodeWord, encImmMem, decodeWord, Laws.opcodeField_encImm, immMemFields_encImm]
    exact if_neg ((wellFormed_ldeaOff_iff f).mp h)
  | ldeaIdx f =>
    rw [encodeWord, encRegMem, decodeWord, Laws.opcodeField_encReg, regMemFields_encReg]
    exact if_neg ((wellFormed_ldeaIdx_iff f).mp h)
  | addiShort f =>
    rw [encodeWord, encShortAlu, decodeWord, Laws.opcodeField_encShort, shortAluFields_encShort]
    exact if_neg ((wellFormed_addiShort_iff f).mp h)
  | addr f =>
    rw [encodeWord, encRegAlu, decodeWord, Laws.opcodeField_encReg, regAluFields_encReg]
    exact if_neg ((wellFormed_addr_iff f).mp h)
  | excp f | wait f | rete f | rset f | etfr f | ettr f =>
    rw [encodeWord, encUnitCall, decodeWord, Laws.opcodeField_encImm, immAluFields_encImm]
    show nameCopi _ = _
    rw [nameCopi, BitVec.extractLsb'_append_eq_left, BitVec.extractLsb'_append_eq_right]
    rfl
  | noop | rets => rfl
  | ljmpOff f =>
    rw [encodeWord, decodeWord, Laws.opcodeField_encImm, immMemFields_encImm]
    exact if_neg ((wellFormed_ljmpOff_iff f).mp h)
  | ljmpIdx f =>
    rw [encodeWord, decodeWord, Laws.opcodeField_encReg, regMemFields_encReg]
    rfl
  | shft f =>
    rw [encodeWord, decodeWord, Laws.opcodeField_encShort, shortAluFields_encShort]
    exact if_pos h
  | shfi f =>
    rw [encodeWord, decodeWord, Laws.opcodeField_encShort, shortAluFields_encShort]
    have hcount : ¬f.shift.amount.isRegister = true := by simpa [wellFormed] using h
    exact if_neg hcount
  | shfr f =>
    rw [encodeWord, decodeWord, Laws.opcodeField_encReg, regAluFields_encReg]
    rfl

/-- Bytes after an instruction do not change it. -/
theorem decode_append {bytes more rest : List Byte} {i : Instr} (h : decode bytes = .ok (i, more)) :
    decode (bytes ++ rest) = .ok (i, more ++ rest) := by
  unfold decode at h
  split at h
  case h_1 => cases h; rfl
  case h_2 => cases h

/-- Settles O2. -/
theorem decodeOfEncode : Obligations.DecodeOfEncode := by
  intro i rest h
  rw [encodeBytes, decode_append (Machine.decode_wordBytes _), decodeWord_encodeWord h, List.nil_append]

/-- Settles O1: the decoder is evaluated on each word. -/
theorem sampleWordsDecode : Obligations.SampleWordsDecode := by
  unfold Obligations.SampleWordsDecode
  decide

end Sys2Proof
end

section
/-! PROOF. The saving ALU instructions: the result in the destination, then the flags AF selects, and nothing else. Settled
here for the Short Immediate format. -/

namespace Sys2Proof.Machine

/-! ### The status register by fields -/

/-- Words that agree on a field agree on a field inside it. -/
theorem extractLsb'_of_extractLsb'_eq {v w : Word} {start len : Nat} (h : v.extractLsb' start len = w.extractLsb' start len)
    {a n : Nat} (hlo : start ≤ a) (hhi : a + n ≤ start + len) : v.extractLsb' a n = w.extractLsb' a n := by
  apply BitVec.eq_of_getLsbD_eq
  intro i hi
  rw [BitVec.getLsbD_extractLsb', BitVec.getLsbD_extractLsb', getLsbD_of_extractLsb'_eq h (by omega) (by omega)]

/-- The flags of a status register with the low byte of `v`. -/
theorem State.flags_of_low {s : State} {v : Word} (h : s.regs.sr.extractLsb' 0 8 = v.extractLsb' 0 8) :
    s.flags = flagsOfWord v := by
  have hbit : ∀ i, i < 8 → s.regs.sr.getLsbD i = v.getLsbD i :=
    fun i hi => getLsbD_of_extractLsb'_eq h (Nat.zero_le i) (by omega)
  simp only [State.flags, flagsOfWord, hbit 0 (by decide), hbit 1 (by decide), hbit 2 (by decide), hbit 3 (by decide)]

/-! ### The flag update after the result is written -/

/-- Setting the flags AF selects in a state that is otherwise that of a LOAD of the result. -/
theorem Loaded.aluSaved {sel : StatusSel} {dest : Reg} {r : Word × Flags} {type : ShiftType} {o : ShiftOut} {s u : State}
    {x : Flags} (h : Loaded dest r.1 s u) (hkeep : sel = .noUpdate → x = u.flags) (halu : sel = .fromAlu → x = r.2)
    (hshf : sel = .fromShift → x = s.shiftFlags type o) : AluSaved sel dest r type o s (u.setFlags x) := by
  have hset : OnlyRegs [.sr] u (u.setFlags x) := u.onlyRegs_setReg .sr _
  have hother : ∀ q, q ≠ .sr → (u.setFlags x).regs.get q = u.regs.get q := fun q hq => hset.regs q (by simpa using hq)
  have hcontrol := u.setFlags_control x
  have hsr : dest ≠ .sr → u.regs.sr = s.regs.sr := fun hd => h.regs .sr (by simpa using hd.symm)
  have hselected : ∀ {before}, u.flags = before → FlagsSelected sel r.2 type o before (u.setFlags x).flags := by
    intro before hbefore
    rw [State.setFlags_flags]
    exact flagsSelected_of_eq (fun hno => (hkeep hno).trans hbefore) halu hshf
  exact {
    result := fun hd => (hother dest hd).trans (h.value.plain hd)
    flags := fun hd => hselected (by simp only [State.flags, hsr hd])
    control := fun hd => hcontrol.trans (by rw [hsr hd])
    statusReserved := fun hd =>
      calc (u.setFlags x).regs.sr.extractLsb' 4 4
        _ = u.regs.sr.extractLsb' 4 4 := extractLsb'_of_extractLsb'_eq hcontrol (by decide) (by decide)
        _ = r.1.extractLsb' 4 4 := extractLsb'_of_extractLsb'_eq (h.value.statusLow hd) (by decide) (by decide)
    statusHighProtected := fun hd hp =>
      (extractLsb'_of_extractLsb'_eq hcontrol (by decide) (by decide)).trans (h.value.statusHighProtected hd hp)
    statusHigh := fun hd hp i hlo hhi =>
      (getLsbD_of_extractLsb'_eq hcontrol (by omega) (by omega)).trans (h.value.statusHigh hd hp i hlo hhi)
    statusFlags := fun hd => hselected (State.flags_of_low (h.value.statusLow hd))
    next := fun hd => (hother .pl (by decide)).trans (h.next hd)
    regs := (h.regs.trans hset.regs).mono (by simp)
    memory := h.memory.trans hset.memory
    unit := h.unit.trans hset.unit }

/-! ### ALU instructions with write-back -/

/-- The end of the ALU template with write-back. -/
theorem aluFinish_saves (op : AluOp) (sel : StatusSel) {dest : Reg} (a b : Word) (type : ShiftType) (o : ShiftOut)
    {s : State} (hw : s.writeForbidden dest = false) :
    ∃ t, aluFinish op true sel dest a b (s.shiftFlags type o) s = .next t ∧
      AluSaved sel dest (aluOp op a b s.flags.c) type o s t := by
  obtain ⟨x, hx, hkeep, halu, hshf⟩ := flagUpdate_eq_setFlags sel (aluOp op a b s.flags.c).2 (s.shiftFlags type o)
    (s.advance.writeReg dest (aluOp op a b s.flags.c).1)
  refine ⟨_, ?_, (s.loaded_advance dest _).aluSaved hkeep halu hshf⟩
  rw [aluFinish, hw, ← hx]
  rfl

/-- A shifting ALU instruction with write-back. -/
theorem aluShifted_saves (op : AluOp) {sel : StatusSel} {sh : Shift} {dest : Reg} (src : Reg) (b : Word) {s : State}
    (hsel : sel ≠ .reserved) (hsh : sh.type ≠ .reserved) (hw : s.writeForbidden dest = false) :
    ∃ t, aluShifted op true sel sh dest src b s = .next t ∧
      AluSaved sel dest (aluOp op (s.advance.shifted sh (s.advance.readReg src)).value b s.flags.c) sh.type
        (s.advance.shifted sh (s.advance.readReg src)) s t := by
  rw [aluShifted, if_neg hsel, if_neg hsh]
  exact aluFinish_saves op sel _ b sh.type _ hw

/-- An ALU instruction of the Short Immediate format with write-back. -/
theorem aluShort_saves (op : AluOp) {f : ShortAlu} {s : State} (hc : condHolds f.cond s.flags = true)
    (hsel : f.sel ≠ .reserved) (hsh : f.shift.type ≠ .reserved) (hw : s.writeForbidden f.reg = false) :
    ∃ t, aluShort op true f s = .next t ∧
      AluSaved f.sel f.reg (aluOp op (s.advance.shifted f.shift (s.advance.readReg f.reg)).value (ext8 f.imm8) s.flags.c)
        f.shift.type (s.advance.shifted f.shift (s.advance.readReg f.reg)) s t := by
  rw [aluShort, conditional_of_holds hc]
  exact aluShifted_saves op f.reg (ext8 f.imm8) hsel hsh hw

/-- From 0x80 up the extension is the one the implementation chose, for every immediate (log 10). -/
theorem ext8_of_ge {v : BitVec 8} (h : 0x80 ≤ v.toNat) :
    ext8 v = if Config.shortImmSigned then 0xFF#8 ++ v else 0x00#8 ++ v := by
  have hbit : v.getLsbD 7 = true := by
    rw [← BitVec.msb_eq_getLsbD_last v, BitVec.msb_eq_decide]
    exact decide_eq_true h
  rw [ext8, hbit, Bool.true_and]

/-- Settles O27. -/
theorem shortImmediateSaves : Obligations.ShortImmediateSaves := by
  refine ⟨?_, fun v => ext8_of_lt, ?_⟩
  · rintro f s o hc hsel hsh hw rfl saves
    have alu := fun op => aluShort_saves op hc hsel hsh hw
    exact ⟨alu .add, alu .adc, alu .sub, alu .sbc, alu .and, alu .orr, alu .xor⟩
  · cases hsigned : Config.shortImmSigned with
    | false => exact .inl fun v hv => by rw [ext8_of_ge hv, hsigned, if_neg Bool.false_ne_true]
    | true => exact .inr fun v hv => by rw [ext8_of_ge hv, hsigned, if_pos rfl]

end Sys2Proof.Machine
end

section
/-! PROOF. The reserved and excluded fields: which of them stops each of the shared operations, and with which refusal. -/

namespace Sys2Proof.Machine

/-! ### AF = 11 (30_encoding.md R117) -/

theorem aluImm_reservedSelect (op : AluOp) (save : Bool) {f : ImmAlu} {s : State} (hc : condHolds f.cond s.flags = true)
    (hsel : f.sel = .reserved) : aluImm op save f s = .refused .reservedStatusSelect :=
  (conditional_of_holds hc).trans (if_pos hsel)

theorem aluShifted_reservedSelect (op : AluOp) (save : Bool) {sel : StatusSel} (sh : Shift) (dest src : Reg) (b : Word)
    (s : State) (hsel : sel = .reserved) :
    aluShifted op save sel sh dest src b s = .refused .reservedStatusSelect := if_pos hsel

theorem undocumentedEffect_reservedSelect {sel : StatusSel} (s : State) (hsel : sel = .reserved) :
    undocumentedEffect sel s = .refused .reservedStatusSelect := if_pos hsel

theorem undocumentedImm_reservedSelect (op : AluOp) {f : ImmAlu} {s : State} (hc : condHolds f.cond s.flags = true)
    (hsel : f.sel = .reserved) : undocumentedImm op f s = .refused .reservedStatusSelect := by
  obtain ⟨-, h⟩ | ⟨-, h⟩ := undocumentedImm_cases (op := op) (f := f) (s := s)
  · exact h.trans (aluImm_reservedSelect op false hc hsel)
  · exact h.trans ((conditional_of_holds hc).trans (undocumentedEffect_reservedSelect s hsel))

/-! ### ST = 111 (30_encoding.md R118) -/

theorem aluShifted_reservedType (op : AluOp) (save : Bool) {sel : StatusSel} {sh : Shift} (dest src : Reg) (b : Word)
    (s : State) (hsel : sel ≠ .reserved) (hsh : sh.type = .reserved) :
    aluShifted op save sel sh dest src b s = .refused .reservedShiftType := (if_neg hsel).trans (if_pos hsh)

theorem conditional_withShiftType_of_reserved {c : Cond} {sh : Shift} {k : Result} {s : State}
    (hc : condHolds c s.flags = true) (hsh : sh.type = .reserved) :
    conditional c s (withShiftType sh k) = .refused .reservedShiftType :=
  (conditional_of_holds hc).trans (withShiftType_of_reserved hsh)

/-! ### Both, in an instruction with both fields -/

/-- A reserved status selector stops with its refusal, a reserved shift type with its own. -/
def StopsOnReserved (sel : StatusSel) (sh : Shift) (r : Result) : Prop :=
  (sel = .reserved → sh.type ≠ .reserved → r = .refused .reservedStatusSelect) ∧
    (sel ≠ .reserved → sh.type = .reserved → r = .refused .reservedShiftType)

theorem aluShifted_stopsOnReserved (op : AluOp) (save : Bool) (sel : StatusSel) (sh : Shift) (dest src : Reg) (b : Word)
    (s : State) : StopsOnReserved sel sh (aluShifted op save sel sh dest src b s) :=
  ⟨fun hsel _ => aluShifted_reservedSelect op save sh dest src b s hsel,
    fun hsel hsh => aluShifted_reservedType op save dest src b s hsel hsh⟩

theorem aluShort_stopsOnReserved (op : AluOp) (save : Bool) {f : ShortAlu} {s : State}
    (hc : condHolds f.cond s.flags = true) : StopsOnReserved f.sel f.shift (aluShort op save f s) := by
  rw [aluShort, conditional_of_holds hc]
  exact aluShifted_stopsOnReserved op save f.sel f.shift f.reg f.reg (ext8 f.imm8) s

theorem aluReg_stopsOnReserved (op : AluOp) (save : Bool) {f : RegAlu} {s : State}
    (hc : condHolds f.cond s.flags = true) : StopsOnReserved f.sel f.shift (aluReg op save f s) := by
  rw [aluReg, conditional_of_holds hc]
  exact aluShifted_stopsOnReserved op save f.sel f.shift f.r1 f.r2 _ s

theorem undocumentedEffect_stopsOnReserved (sel : StatusSel) (sh : Shift) (s : State) :
    StopsOnReserved sel sh (withShiftType sh (undocumentedEffect sel s)) :=
  ⟨fun hsel hsh => (withShiftType_of_ne hsh).trans (undocumentedEffect_reservedSelect s hsel),
    fun _ hsh => withShiftType_of_reserved hsh⟩

theorem undocumentedShort_stopsOnReserved (op : AluOp) {f : ShortAlu} {s : State}
    (hc : condHolds f.cond s.flags = true) : StopsOnReserved f.sel f.shift (undocumentedShort op f s) := by
  obtain ⟨-, h⟩ | ⟨-, h⟩ := undocumentedShort_cases (op := op) (f := f) (s := s) <;> rw [h]
  · exact aluShort_stopsOnReserved op false hc
  · rw [conditional_of_holds hc]
    exact undocumentedEffect_stopsOnReserved f.sel f.shift s

theorem undocumentedReg_stopsOnReserved (op : AluOp) {f : RegAlu} {s : State}
    (hc : condHolds f.cond s.flags = true) : StopsOnReserved f.sel f.shift (undocumentedReg op f s) := by
  obtain ⟨-, h⟩ | ⟨-, h⟩ := undocumentedReg_cases (op := op) (f := f) (s := s) <;> rw [h]
  · exact aluReg_stopsOnReserved op false hc
  · rw [conditional_of_holds hc]
    exact undocumentedEffect_stopsOnReserved f.sel f.shift s

/-! ### Shift fields where no shift is allowed (41_alu.md R202, R213; 43_control_flow.md R260) -/

theorem conditional_unshifted_of_nonzero {c : Cond} {sh : Shift} {k : Result} {s : State}
    (hc : condHolds c s.flags = true) (hsh : sh ≠ { type := .nul, amount := .literal 0 }) :
    conditional c s (unshifted sh k) = .refused .shiftFieldsNotZero :=
  (conditional_of_holds hc).trans (unshifted_of_nonzero hsh)

/-- Settles O35: each instruction is the refusal of the shared operation it runs. -/
theorem reservedFieldsStop : Obligations.ReservedFieldsStop := by
  intro s
  refine ⟨fun f hc hsel => ?imm, fun f hc => ⟨?short, fun hsh => ?loadShort, fun hsh => ?copiShort⟩,
    fun f hc => ⟨?reg, fun hsh => ?loadReg, fun hsh => ?copr⟩, fun f hc hsh => ?shiftOne, fun f hc hsh => ?shiftReg,
    fun f hc hsh => ?jump, fun f hc => ⟨fun hsh => ?memory, fun hsh => ?control⟩⟩
  case imm =>
    have alu := fun op save => aluImm_reservedSelect op save hc hsel
    have undoc := fun op => undocumentedImm_reservedSelect op hc hsel
    simp only [List.forall_mem_cons]
    exact ⟨alu .add true, alu .adc true, alu .sub true, alu .sbc true, alu .and true, alu .orr true, alu .xor true,
      alu .sub false, alu .and false, alu .xor false, undoc .add, undoc .adc, undoc .sbc, undoc .orr,
      List.forall_mem_nil _⟩
  case short =>
    have alu := fun op save => aluShort_stopsOnReserved op save hc
    have undoc := fun op => undocumentedShort_stopsOnReserved op hc
    simp only [List.forall_mem_cons]
    exact ⟨alu .add true, alu .adc true, alu .sub true, alu .sbc true, alu .and true, alu .orr true, alu .xor true,
      alu .sub false, alu .and false, alu .xor false, undoc .add, undoc .adc, undoc .sbc, undoc .orr,
      List.forall_mem_nil _⟩
  case reg =>
    have alu := fun op save => aluReg_stopsOnReserved op save hc
    have undoc := fun op => undocumentedReg_stopsOnReserved op hc
    simp only [List.forall_mem_cons]
    exact ⟨alu .add true, alu .adc true, alu .sub true, alu .sbc true, alu .and true, alu .orr true, alu .xor true,
      alu .sub false, alu .and false, alu .xor false, undoc .add, undoc .adc, undoc .sbc, undoc .orr,
      List.forall_mem_nil _⟩
  case loadShort | loadReg => exact conditional_unshifted_of_nonzero hc hsh
  case copiShort | copr => exact conditional_withShiftType_of_reserved hc hsh
  case shiftOne =>
    have stops := (conditional_of_holds hc).trans
      (aluShifted_reservedType .add true (sel := .fromShift) f.reg f.reg (ext8 0) s (by decide) hsh)
    exact ⟨stops, stops⟩
  case shiftReg =>
    exact (conditional_of_holds hc).trans
      (aluShifted_reservedType .add true (sel := .fromShift) f.r1 f.r2 _ s (by decide) hsh)
  case jump => exact conditional_unshifted_of_nonzero hc hsh
  case memory =>
    have stops : ∀ k, conditional f.cond s (withShiftType f.shift k) = .refused .reservedShiftType :=
      fun _ => conditional_withShiftType_of_reserved hc hsh
    simp only [List.forall_mem_cons]
    exact ⟨stops _, stops _, stops _, stops _, List.forall_mem_nil _⟩
  case control =>
    have stops : ∀ k, conditional f.cond s (unshifted f.shift k) = .refused .shiftFieldsNotZero :=
      fun _ => conditional_unshifted_of_nonzero hc hsh
    simp only [List.forall_mem_cons]
    exact ⟨stops _, stops _, stops _, stops _, List.forall_mem_nil _⟩

end Sys2Proof.Machine
end

section
/-! PROOF. The forms of a call: COPI and COPR with the call word of a named operation are the name, and WAIT sets the
wait flag. -/

namespace Sys2Proof.Machine

/-- WAIT past the instruction, with the call word in the cause register. -/
def State.waitingAfter (s : State) (w : Word) : State := { s.advance with cause := w, waiting := true }

/-- In supervisor mode the call word of WAIT reaches the operation. -/
theorem copCall_wait {w : Word} {s : State} (hw : w.extractLsb' 8 8 = 0x19#8) (hsup : s.protectedMode = false) :
    copCall w s = .next (s.waitingAfter w) := by
  obtain ⟨par, rfl⟩ : ∃ par : BitVec 8, w = 0x19#8 ++ par :=
    ⟨_, (callWord_of_code (congrArg BitVec.toNat hw)).symm⟩
  obtain ⟨hunit, hop, -⟩ := callWord_fields 0x19#8 par
  have hid : (0x19#8).extractLsb' 4 4 = 0x1#4 := rfl
  have hcode : (0x19#8).extractLsb' 0 4 = 0x9#4 := rfl
  have hpresent : s.unitPresent 0x1#4 = true := rfl
  simp [copCall, hunit, hop, hid, hcode, hpresent, hsup, callWait, State.waitingAfter]

/-- COPI with the call word of an operation is the operation by name. -/
theorem execCopi_eq_unitCall {u : UnitCall} {g : ImmAlu} {code : BitVec 8} (s : State) (hcond : g.cond = u.cond)
    (hw : g.imm = code ++ u.par) : execCopi g s = unitCall code u s := by
  rw [execCopi, unitCall, hcond, hw]

/-- So is COPR, when its shift type is not reserved. -/
theorem execCopr_eq_unitCall {u : UnitCall} {h : RegAlu} {code : BitVec 8} {s : State} (hcond : h.cond = u.cond)
    (hsh : h.shift.type ≠ .reserved) (hw : s.advance.readReg h.r3 = code ++ u.par) :
    execCopr h s = unitCall code u s := by
  rw [execCopr, unitCall, withShiftType_of_ne hsh, hcond, hw]

/-- Settles O50: every form is the call of its call word. -/
theorem callForms : Obligations.CallForms := by
  intro s waits
  refine ⟨fun hsup => ?waits, fun u g h hg hh hsh => ?named⟩
  case waits =>
    have call : ∀ {i : Instr} {w : Word}, w.extractLsb' 8 8 = 0x19#8 → exec i s = copCall w s → waits i :=
      fun hw hi => ⟨_, hi.trans (copCall_wait hw hsup), rfl, rfl, s.onlyRegs_advance.regs, ⟨fun _ => rfl, rfl⟩,
        rfl, rfl, rfl, rfl, ⟨rfl, rfl, rfl, rfl, rfl, rfl⟩⟩
    exact ⟨fun f hc => call (w := 0x19#8 ++ f.par) BitVec.extractLsb'_append_eq_left (conditional_of_holds hc),
      fun f hc hw => call hw (exec_copi hc), fun f hc hsh hw => call hw (exec_copr hc hsh)⟩
  case named =>
    have calls : ∀ code : BitVec 8, (g.imm = code ++ u.par → execCopi g s = unitCall code u s) ∧
        (s.advance.readReg h.r3 = code ++ u.par → execCopr h s = unitCall code u s) :=
      fun _ => ⟨execCopi_eq_unitCall s hg, execCopr_eq_unitCall hh hsh⟩
    exact ⟨calls 0x11, calls 0x19, calls 0x1A, calls 0x1B, calls 0x1C, calls 0x1D⟩

end Sys2Proof.Machine
end

section
/-! PROOF. The fetch: which fault it has, in the order the faults are detected, and the step that takes it or runs the
instruction fetched. -/

namespace Sys2Proof.Machine

/-! ### The fault of a fetch (40_common_execution.md R141)

One equation per branch of `fetchFault`, each under the failure of the checks before it. -/

theorem State.fetchFault_of_odd {s : State} (hodd : s.regs.pl.getLsbD 0 = true) :
    s.fetchFault = some (.alignment, 0, 0) := if_pos hodd

section
variable {s : State} (heven : s.regs.pl.getLsbD 0 = false)
include heven

theorem State.fetchFault_of_firstBusError (hfirst : s.busError s.fetchAddr .fetch = true) :
    s.fetchFault = some (.bus, 0, s.fetchAddr) := by
  rw [State.fetchFault, heven, if_neg Bool.false_ne_true, if_pos hfirst]

variable (hfirst : s.busError s.fetchAddr .fetch = false)
include hfirst

theorem State.fetchFault_of_secondBusError (hsecond : s.busError s.fetchAddrLow .fetch = true) :
    s.fetchFault = some (.bus, 1, s.fetchAddrLow) := by
  rw [State.fetchFault, heven, hfirst, if_neg Bool.false_ne_true, if_neg Bool.false_ne_true, if_pos hsecond]

/-- Where no earlier check fails, the overflow of the program counter decides. -/
theorem State.fetchFault_of_fetched (hsecond : s.busError s.fetchAddrLow .fetch = false) :
    s.fetchFault = if s.trapOverflow && s.regs.pl == 0xFFFE#16 then some (.segmentOverflow, 1, 0) else none := by
  simp only [State.fetchFault, heven, hfirst, hsecond, Bool.false_eq_true, if_false]

end

/-- The program counter overflows at 0xFFFE when address overflow traps. -/
theorem State.overflowsAtFetch_iff (s : State) :
    (s.trapOverflow && s.regs.pl == 0xFFFE#16) = true ↔ s.regs.pl = 0xFFFE ∧ s.trapOverflow = true := by
  rw [Bool.and_eq_true, beq_iff_eq, and_comm]
  rfl

/-! ### The step -/

/-- Beginning an instruction changes nothing the fetch looks at. -/
theorem State.fetchFault_beginInstr (s : State) : s.beginInstr.fetchFault = s.fetchFault := rfl

/-- A fault of the fetch is the whole step. -/
theorem step_of_fetchFault {s : State} {f : FaultKind} {phase : BitVec 3} {bus : Addr}
    (hservice : serviceInterrupt s.atBoundary = none) (hwait : s.atBoundary.waiting = false)
    (hfetch : s.atBoundary.fetchFault = some (f, phase, bus)) :
    step s = raiseFault f phase bus s.atBoundary.beginInstr :=
  (step_eq_runInstruction hservice hwait).trans (runInstruction_of_fetchFault hfetch)

/-- Settles O5: each clause is one branch of the fetch's checks. -/
theorem fetchFaults : Obligations.FetchFaults := by
  rintro s t b rfl hservice hwait rfl
  have faulting : ∀ {f phase bus}, s.atBoundary.fetchFault = some (f, phase, bus) → s.atBoundary.beginInstr.canFault f →
      faults f phase bus s.atBoundary.beginInstr (step s) := fun hfetch hcan =>
    step_of_fetchFault hservice hwait hfetch ▸ faults_raiseFault _ _ hcan
  refine ⟨fun hodd => faulting (State.fetchFault_of_odd hodd),
    fun heven hfirst => faulting (State.fetchFault_of_firstBusError heven hfirst),
    fun heven hfirst hsecond => faulting (State.fetchFault_of_secondBusError heven hfirst hsecond), ?overflow, ?none⟩
  case overflow =>
    intro hpl htrap hfirst hsecond
    have heven : s.atBoundary.regs.pl.getLsbD 0 = false := by rw [hpl]; rfl
    refine faulting ?_
    rw [State.fetchFault_of_fetched heven hfirst hsecond, if_pos ((State.overflowsAtFetch_iff _).mpr ⟨hpl, htrap⟩)]
  case none =>
    intro heven hfirst hsecond htrap
    rw [State.fetchFault_beginInstr, State.fetchFault_of_fetched heven hfirst hsecond, if_neg]
    rw [State.overflowsAtFetch_iff]
    rintro ⟨hpl, hset⟩
    exact Bool.false_ne_true ((htrap hpl).symm.trans hset)

/-- Settles O7: the second clause is the fault of a fetch from an odd address. -/
theorem doubleFaultEntry : Obligations.DoubleFaultEntry := by
  refine ⟨fun f phase bus ret s hlevel hread => ⟨takeFault_double f phase bus ret hlevel hread,
    takeFault_double f phase bus s.pc hlevel hread, fun hnone => ?code⟩, ?step⟩
  case code =>
    have hunlisted : ∀ c ∈ s.params.faultCodes, c.fault ≠ .doubleFault := by rw [hnone]; exact List.forall_mem_nil _
    exact State.faultCode_of_unlisted hunlisted
  case step =>
    rintro s t b rfl hservice hwait rfl hodd hlevel hread
    rw [step_of_fetchFault hservice hwait (State.fetchFault_of_odd hodd)]
    exact takeFault_double .alignment 0 0 _ hlevel hread

/-! ### The instruction fetched -/

/-- With no latch set the service point enters nothing. -/
theorem serviceInterrupt_of_noPending {s : State} (h : s.pending = Pending.none) : serviceInterrupt s = none := by
  have hget : ∀ k, s.pending.get k = false := fun k => by rw [h]; cases k <;> rfl
  have hconflict : s.levelFiveConflict = false := by
    rw [State.levelFiveConflict, show s.pending.line1 = false from hget .line1, Bool.false_and, Bool.false_and]
  have hnext : s.nextInterrupt = none :=
    List.find?_eq_none.mpr fun k _ => by
      rw [State.eligible, hget k, Bool.false_and, Bool.false_and]
      exact Bool.false_ne_true
  rw [serviceInterrupt, hconflict, if_neg Bool.false_ne_true, hnext]
  rfl

/-- Where nothing is signalled, a step is one instruction from the state as it stands. -/
theorem step_of_quiet {s : State} (h : s.Quiet) : step s = runInstruction s := by
  have hboundary := State.atBoundary_of_none h.noEvent h.noDeviceEvent
  rw [← hboundary] at h
  have hstep := step_eq_runInstruction (s := s) (serviceInterrupt_of_noPending h.noPending) h.running
  rwa [hboundary] at hstep

/-- With trace mode off the outcome is that of the instruction. -/
theorem traceAfter_off (r : Result) : traceAfter false r = r := by
  cases r <;> rfl

/-- The bytes of an instruction are those of its two words, the high byte of each first (log 38). -/
theorem wordBytes_append (hi lo : Word) : wordBytes (hi ++ lo) =
    [hi.extractLsb' 8 8, hi.extractLsb' 0 8, lo.extractLsb' 8 8, lo.extractLsb' 0 8] := by
  simp only [wordBytes, List.cons.injEq, and_true]
  refine ⟨?_, ?_, ?_, ?_⟩
  · exact BitVec.extractLsb'_append_eq_of_le (by decide)
  · exact BitVec.extractLsb'_append_eq_of_le (by decide)
  · exact BitVec.extractLsb'_append_eq_of_add_le (by decide)
  · exact BitVec.extractLsb'_append_eq_of_add_le (by decide)

/-- The idle cause is one of the two words 60_exceptions.md R386 allows. -/
theorem causeIdle_eq : causeIdle = 0x1000 ∨ causeIdle = 0x0000 := ite_eq_or_eq _ _ _

/-- Settles O4. -/
theorem stepRunsDecoded : Obligations.StepRunsDecoded := by
  refine ⟨?traced, ?quiet, ?bytes, causeIdle, causeIdle_eq, fun _ => rfl⟩
  case traced =>
    rintro s t i rest rfl hservice hwait hfetch hdecode -
    rw [step_eq_runInstruction hservice hwait, runInstruction_of_fetched hfetch hdecode]
  case quiet =>
    intro s i rest hquiet htrace hfetch hdecode _
    rw [step_of_quiet hquiet, runInstruction_of_fetched hfetch hdecode, htrace, traceAfter_off]
  case bytes =>
    rintro s hi lo rfl rfl
    exact wordBytes_append _ _

end Sys2Proof.Machine
end

section
/-! PROOF. Conditional execution: every instruction asks its condition first, and a false one makes it a no-operation. -/

namespace Sys2Proof.Machine

/-- Every instruction runs under the condition it carries; NOOP and RETS carry the one that always holds, and the
undocumented opcodes ask theirs under either setting of `UNDOC_OPS`. -/
theorem exec_eq_conditional (i : Instr) (s : State) : ∃ k, exec i s = conditional (condOf i) s k := by
  cases i with
  | undoc08 f | undoc09 f | undoc0B f | undoc0D f =>
    obtain ⟨-, h⟩ | ⟨-, h⟩ := undocumentedImm_cases (f := f) (s := s) <;> exact ⟨_, h⟩
  | undoc28 f | undoc29 f | undoc2B f | undoc2D f =>
    obtain ⟨-, h⟩ | ⟨-, h⟩ := undocumentedShort_cases (f := f) (s := s) <;> exact ⟨_, h⟩
  | undoc38 f | undoc39 f | undoc3B f | undoc3D f =>
    obtain ⟨-, h⟩ | ⟨-, h⟩ := undocumentedReg_cases (f := f) (s := s) <;> exact ⟨_, h⟩
  | _ => exact ⟨_, rfl⟩

/-- Settles O24: the instruction only moves on. -/
theorem falseCondition : Obligations.FalseCondition := by
  intro i s hfalse
  obtain ⟨k, hexec⟩ := exec_eq_conditional i s
  exact ⟨s.advance, hexec.trans (conditional_of_fails hfalse), rfl, s.onlyRegs_advance⟩

end Sys2Proof.Machine
end

section
/-! PROOF. The sixteen conditions, and what the flags of a compare say of its operands. -/

namespace Sys2Proof.Machine

/-! ### The conditions (40_common_execution.md R143) -/

section
variable (f : Flags)

theorem condHolds_ne : condHolds .ne f = true ↔ f.z = false := by rw [condHolds, Bool.not_eq_true']

theorem condHolds_cc : condHolds .cc f = true ↔ f.c = false := by rw [condHolds, Bool.not_eq_true']

theorem condHolds_nc : condHolds .nc f = true ↔ f.n = false := by rw [condHolds, Bool.not_eq_true']

theorem condHolds_oc : condHolds .oc f = true ↔ f.v = false := by rw [condHolds, Bool.not_eq_true']

theorem condHolds_hi : condHolds .hi f = true ↔ f.c = true ∧ f.z = false := by
  rw [condHolds, Bool.and_eq_true, Bool.not_eq_true']

theorem condHolds_lo : condHolds .lo f = true ↔ f.c = false ∨ f.z = true := by
  rw [condHolds, Bool.or_eq_true, Bool.not_eq_true']

theorem condHolds_ge : condHolds .ge f = true ↔ f.n = f.v := beq_iff_eq

theorem condHolds_lt : condHolds .lt f = true ↔ f.n ≠ f.v := bne_iff_ne

theorem condHolds_gt : condHolds .gt f = true ↔ f.z = false ∧ f.n = f.v := by
  rw [condHolds, Bool.and_eq_true, Bool.not_eq_true', beq_iff_eq]

theorem condHolds_le : condHolds .le f = true ↔ f.z = true ∨ f.n ≠ f.v := by
  rw [condHolds, Bool.or_eq_true, bne_iff_ne]

end

/-! ### The flags of a difference

C says whether the unsigned difference borrows, Z whether it is zero, N and V together whether the signed one is negative. -/

section
variable (a b : Word)

theorem subWithBorrow_result : (subWithBorrow a b false).1 = a - b := by
  have hb := b.isLt
  rw [subWithBorrow, ← BitVec.toNat_inj, BitVec.toNat_ofInt, BitVec.toNat_sub, Bool.toNat_false]
  omega

theorem subWithBorrow_c : (subWithBorrow a b false).2.c = true ↔ b.toNat ≤ a.toNat := by
  rw [subWithBorrow, decide_eq_true_iff, Bool.toNat_false]
  omega

theorem subWithBorrow_z : (subWithBorrow a b false).2.z = true ↔ a = b := by
  change ((subWithBorrow a b false).1 == 0) = true ↔ a = b
  rw [subWithBorrow_result, beq_iff_eq]
  exact sub_eq_zero

theorem subWithBorrow_n : (subWithBorrow a b false).2.n = decide ((a.toInt - b.toInt).bmod 65536 < 0) := by
  change (subWithBorrow a b false).1.getLsbD 15 = _
  rw [subWithBorrow_result, ← BitVec.msb_eq_getLsbD_last (a - b), BitVec.msb_eq_toInt, BitVec.toInt_sub]

theorem subWithBorrow_v : (subWithBorrow a b false).2.v = signedOverflow (a.toInt - b.toInt) :=
  congrArg signedOverflow (Int.sub_zero _)

/-- N gives the sign of the exact signed difference unless that leaves the signed range; then it gives the opposite, and V
is set. -/
theorem subWithBorrow_n_ne_v : (subWithBorrow a b false).2.n ≠ (subWithBorrow a b false).2.v ↔ a.toInt < b.toInt := by
  have ha : -32768 ≤ a.toInt ∧ a.toInt < 32768 := ⟨a.le_toInt, a.toInt_lt⟩
  have hb : -32768 ≤ b.toInt ∧ b.toInt < 32768 := ⟨b.le_toInt, b.toInt_lt⟩
  rw [subWithBorrow_n, subWithBorrow_v, signedOverflow, ← Bool.decide_or, Ne, decide_eq_decide, Int.bmod_def]
  omega

end

/-- Settles O18: the comparisons follow from C, Z and the sign, over the numbers the operands stand for. -/
theorem conditionsAfterCompare : Obligations.ConditionsAfterCompare := by
  refine ⟨fun f => ⟨rfl, rfl, Iff.rfl, condHolds_ne f, Iff.rfl, condHolds_cc f, Iff.rfl, condHolds_nc f, Iff.rfl,
    condHolds_oc f, condHolds_hi f, condHolds_lo f, condHolds_ge f, condHolds_lt f, condHolds_gt f, condHolds_le f⟩,
    fun a b c => ?compare⟩
  case compare =>
    have hc := subWithBorrow_c a b
    have hz := subWithBorrow_z a b
    have hlt := subWithBorrow_n_ne_v a b
    have hunsigned : a = b ↔ a.toNat = b.toNat := BitVec.toNat_inj.symm
    have hsigned : a = b ↔ a.toInt = b.toInt := BitVec.toInt_inj.symm
    have hc' : (subWithBorrow a b false).2.c = false ↔ a.toNat < b.toNat := by
      rw [← Bool.not_eq_true, hc, Nat.not_le]
    have hz' : (subWithBorrow a b false).2.z = false ↔ a ≠ b := by rw [← Bool.not_eq_true, hz]
    have hge : (subWithBorrow a b false).2.n = (subWithBorrow a b false).2.v ↔ b.toInt ≤ a.toInt := by
      rw [← Int.not_lt, ← hlt, not_not]
    refine ⟨hz, (condHolds_ne _).trans hz', (condHolds_hi _).trans ?hi, hc, (condHolds_cc _).trans hc',
      (condHolds_lo _).trans ?lo, (condHolds_gt _).trans ?gt, (condHolds_ge _).trans hge, (condHolds_lt _).trans hlt,
      (condHolds_le _).trans ?le⟩ <;> rw [aluOp]
    case hi => rw [hc, hz', Ne, hunsigned]; omega
    case lo => rw [hc', hz, hunsigned]; omega
    case gt => rw [hz', hge, Ne, hsigned]; omega
    case le => rw [hz, hlt, hsigned]; omega

end Sys2Proof.Machine
end

section
/-! PROOF. The shifter: its count, the arithmetic the shifts are, the overflow of ASL, and the rotates through carry as
rotates of 17 bits. -/

namespace Sys2Proof.Machine

/-! ### The count (40_common_execution.md R148, R156) -/

/-- A count of 0 changes nothing, whatever the type. -/
theorem shiftBy_zero (t : ShiftType) (v : Word) (cin : Bool) :
    shiftBy t 0 v cin = { value := v, carry := cin, overflow := false } := if_pos rfl

section
variable {s : State} {sh : Shift} (v : Word)

/-- A shift of no type is none, whatever the count. -/
theorem State.shifted_of_nul (ht : sh.type = .nul) :
    s.shifted sh v = { value := v, carry := s.flags.c, overflow := false } := if_pos ht

/-- With a count the shifter has a result for, it shifts by that count, with the carry flag as the carry in. -/
theorem State.shifted_eq_shiftBy (ht : sh.type ≠ .nul) (hcount : s.shiftCount sh.amount ≤ 15) :
    s.shifted sh v = shiftBy sh.type (s.shiftCount sh.amount) v s.flags.c := (if_neg ht).trans (if_pos hcount)

/-- With a count of 0 it gives value and carry as they were. -/
theorem State.shifted_of_count_zero (hcount : s.shiftCount sh.amount = 0) :
    s.shifted sh v = { value := v, carry := s.flags.c, overflow := false } := by
  by_cases ht : sh.type = .nul
  · exact s.shifted_of_nul v ht
  · rw [s.shifted_eq_shiftBy v ht (hcount.trans_le (Nat.zero_le _)), hcount, shiftBy_zero]

end

/-- Settles O23. -/
theorem shiftCounts : Obligations.ShiftCounts := by
  intro s v type n r amount
  have hnul := s.shifted_of_nul (sh := { type := .nul, amount := amount }) v rfl
  have hzero := s.shifted_of_count_zero (sh := { type := type, amount := .literal 0 }) v rfl
  rw [hnul, hzero]
  exact ⟨fun ht => s.shifted_eq_shiftBy v ht (Nat.le_of_lt_succ n.isLt), fun ht hr => s.shifted_eq_shiftBy v ht hr,
    rfl, rfl, rfl, rfl, rfl, fun hr => s.shifted_of_count_zero v hr⟩

/-! ### Shifts (40_common_execution.md R150 to R153) -/

section
variable {n : Nat} (hn : n ≠ 0) (v : Word) (cin : Bool)
include hn

theorem shiftBy_lsl : shiftBy .lsl n v cin = { value := v <<< n, carry := v.getLsbD (16 - n), overflow := false } :=
  if_neg hn

theorem shiftBy_lsr : shiftBy .lsr n v cin = { value := v >>> n, carry := v.getLsbD (n - 1), overflow := false } :=
  if_neg hn

theorem shiftBy_asl :
    shiftBy .asl n v cin = { value := v <<< n, carry := v.getLsbD (16 - n), overflow := signChanges v n } :=
  if_neg hn

theorem shiftBy_asr :
    shiftBy .asr n v cin = { value := v.sshiftRight n, carry := v.getLsbD (n - 1), overflow := false } :=
  if_neg hn

end

/-- Settles O20. -/
theorem shiftsAsArithmetic : Obligations.ShiftsAsArithmetic := by
  intro n v cin hn _
  have hn0 : n ≠ 0 := Nat.one_le_iff_ne_zero.mp hn
  rw [shiftBy_lsl hn0, shiftBy_lsr hn0, shiftBy_asr hn0]
  refine ⟨⟨?lsl, rfl⟩, ⟨?lsr, rfl⟩, ⟨?asr, rfl⟩⟩
  case lsl => rw [BitVec.toNat_shiftLeft, Nat.shiftLeft_eq]
  case lsr => rw [BitVec.toNat_ushiftRight, Nat.shiftRight_eq_div_pow]
  case asr => rw [BitVec.toInt_sshiftRight, Int.shiftRight_eq_div_pow, Int.natCast_pow]; rfl

/-- A word shifted left, read with a sign: the exact product, reduced modulo 2^16 into the signed range. -/
theorem shiftLeft_toInt (v : Word) (n : Nat) : (v <<< n).toInt = (v.toInt * 2 ^ n).bmod 65536 := by
  rw [BitVec.toInt_shiftLeft, BitVec.toInt_eq_toNat_bmod v, Nat.shiftLeft_eq, Int.natCast_mul, Int.natCast_pow]
  exact Int.bmod_mul_bmod.symm

/-- What reduction into the signed range leaves alone. -/
theorem bmod_word_eq_self_iff (x : Int) : x.bmod 65536 = x ↔ -32768 ≤ x ∧ x < 32768 := by
  rw [Int.bmod_def]
  omega

/-- The sign changes during a left shift exactly when the product leaves the signed range: the bits that would have to be
equal are the high part of the value, which is then 0 or -1. -/
theorem signChanges_eq_false_iff (v : Word) {n : Nat} (hn : n ≤ 15) :
    signChanges v n = false ↔ -32768 ≤ v.toInt * 2 ^ n ∧ v.toInt * 2 ^ n < 32768 := by
  have hpos : (0 : Int) < 2 ^ n := by positivity
  have hpos' : (0 : Int) < 2 ^ (15 - n) := by positivity
  have hprod : (32768 : Int) = 2 ^ (15 - n) * 2 ^ n := by rw [← pow_add, Nat.sub_add_cancel hn]; rfl
  have htop : (v.sshiftRight (15 - n)).toInt = v.toInt / 2 ^ (15 - n) := by
    rw [BitVec.toInt_sshiftRight, Int.shiftRight_eq_div_pow, Int.natCast_pow]; rfl
  calc signChanges v n = false
    _ ↔ v.sshiftRight (15 - n) = 0 ∨ v.sshiftRight (15 - n) = 0xFFFF#16 := by
      simp only [signChanges, Bool.not_eq_false', Bool.or_eq_true, beq_iff_eq]
    _ ↔ v.toInt / 2 ^ (15 - n) = 0 ∨ v.toInt / 2 ^ (15 - n) = -1 := by
      rw [← BitVec.toInt_inj, ← BitVec.toInt_inj, htop]; rfl
    _ ↔ -1 ≤ v.toInt / 2 ^ (15 - n) ∧ v.toInt / 2 ^ (15 - n) < 1 := by omega
    _ ↔ -2 ^ (15 - n) ≤ v.toInt ∧ v.toInt < 2 ^ (15 - n) := by
      rw [Int.le_ediv_iff_mul_le hpos', Int.ediv_lt_iff_lt_mul hpos', neg_one_mul, one_mul]
    _ ↔ -32768 ≤ v.toInt * 2 ^ n ∧ v.toInt * 2 ^ n < 32768 := by
      rw [hprod, ← neg_mul, mul_le_mul_iff_left₀ hpos, mul_lt_mul_iff_left₀ hpos]

/-- Settles O21: the product fits when reducing it modulo 2^16 leaves it alone. -/
theorem aslOverflow : Obligations.AslOverflow := by
  intro n v cin hn
  by_cases hn0 : n = 0
  · subst hn0
    rw [shiftBy_zero, shiftBy_zero]
    simp
  · rw [shiftBy_asl hn0, shiftBy_lsl hn0]
    refine ⟨rfl, rfl, ?_, fun h => absurd h hn0⟩
    rw [shiftLeft_toInt, bmod_word_eq_self_iff]
    exact signChanges_eq_false_iff v hn

/-! ### Rotates (40_common_execution.md R154, R155) -/

/-- Rotating to the left takes bit `j` to place `j + n`. -/
theorem rotateLeft_getLsbD {w n j : Nat} (x : BitVec w) (hn : n < w) (hj : j < w) :
    (x.rotateLeft n).getLsbD ((j + n) % w) = x.getLsbD j := by
  rw [BitVec.getLsbD_rotateLeft_of_le hn]
  rcases Nat.lt_or_ge (j + n) w with h | h
  · have hlt : ¬j + n < n := by omega
    simp [Nat.mod_eq_of_lt h, h, hlt]
  · have hmod : (j + n) % w = j + n - w := by rw [Nat.mod_eq_sub_mod h, Nat.mod_eq_of_lt (by omega)]
    have hlt : j + n - w < n := by omega
    have hplace : w - n + (j + n - w) = j := by omega
    simp [hmod, hlt, hplace]

/-- Rotating to the right takes it back. -/
theorem rotateRight_getLsbD {w n j : Nat} (x : BitVec w) (hn : n < w) (hj : j < w) :
    (x.rotateRight n).getLsbD j = x.getLsbD ((j + n) % w) := by
  rw [BitVec.getLsbD_rotateRight_of_lt hn]
  rcases Nat.lt_or_ge (j + n) w with h | h
  · have hlt : j < w - n := by omega
    simp [Nat.mod_eq_of_lt h, hlt, Nat.add_comm n j]
  · have hmod : (j + n) % w = j + n - w := by rw [Nat.mod_eq_sub_mod h, Nat.mod_eq_of_lt (by omega)]
    have hlt : ¬j < w - n := by omega
    have hplace : j - (w - n) = j + n - w := by omega
    simp [hmod, hlt, hplace, hj]

theorem rotateRight_rotateLeft {w n : Nat} (x : BitVec w) (hn : n < w) : (x.rotateLeft n).rotateRight n = x :=
  BitVec.eq_of_getLsbD_eq fun _ hj => (rotateRight_getLsbD _ hn hj).trans (rotateLeft_getLsbD x hn hj)

theorem rotateLeft_rotateRight {w n : Nat} (x : BitVec w) (hn : n < w) : (x.rotateRight n).rotateLeft n = x := by
  apply BitVec.eq_of_getLsbD_eq
  intro i hi
  obtain ⟨j, hj, rfl⟩ : ∃ j, j < w ∧ (j + n) % w = i := by
    by_cases h : n ≤ i
    · exact ⟨i - n, by omega, by rw [Nat.sub_add_cancel h, Nat.mod_eq_of_lt hi]⟩
    · exact ⟨i + w - n, by omega, by rw [Nat.sub_add_cancel (by omega), Nat.add_mod_right, Nat.mod_eq_of_lt hi]⟩
  rw [rotateLeft_getLsbD _ hn hj, rotateRight_getLsbD x hn hj]

/-- What a rotate through carry gives, from the 17 bits of carry over value. -/
def ShiftOut.ofRotated (x : BitVec 17) : ShiftOut :=
  { value := x.extractLsb' 0 16, carry := x.getLsbD 16, overflow := false }

/-- The 17 bits are read back from it. -/
theorem ShiftOut.ofRotated_bits (x : BitVec 17) : BitVec.ofBool (ofRotated x).carry ++ (ofRotated x).value = x := by
  have hcarry : BitVec.ofBool (x.getLsbD 16) = x.extractLsb' 16 1 := by
    apply BitVec.eq_of_getLsbD_eq
    intro i hi
    obtain rfl : i = 0 := Nat.lt_one_iff.mp hi
    simp
  rw [ofRotated, hcarry]
  exact BitVec.extractLsb'_append_extractLsb'

/-- It is read back from them. -/
theorem ShiftOut.ofRotated_append (cin : Bool) (v : Word) :
    ofRotated (BitVec.ofBool cin ++ v) = { value := v, carry := cin, overflow := false } := by
  have hcarry : (BitVec.ofBool cin ++ v).getLsbD 16 = cin := by rw [BitVec.getLsbD_append]; simp
  rw [ofRotated, hcarry, BitVec.extractLsb'_append_eq_right]

section
variable {n : Nat} (hn0 : n ≠ 0) (hn : n ≤ 15) (v : Word) (cin : Bool)
include hn0 hn

/-- RTL is a rotate of the 17 bits to the left. -/
theorem shiftBy_rtl : shiftBy .rtl n v cin = .ofRotated ((BitVec.ofBool cin ++ v).rotateLeft n) := by
  rw [BitVec.rotateLeft_def, Nat.mod_eq_of_lt (by omega)]
  exact if_neg hn0

/-- RTR is one to the right. -/
theorem shiftBy_rtr : shiftBy .rtr n v cin = .ofRotated ((BitVec.ofBool cin ++ v).rotateRight n) := by
  rw [BitVec.rotateRight_def, Nat.mod_eq_of_lt (by omega)]
  exact if_neg hn0

theorem shiftBy_rtr_rtl : shiftBy .rtr n (shiftBy .rtl n v cin).value (shiftBy .rtl n v cin).carry =
    { value := v, carry := cin, overflow := false } := by
  rw [shiftBy_rtr hn0 hn, shiftBy_rtl hn0 hn, ShiftOut.ofRotated_bits, rotateRight_rotateLeft _ (by omega),
    ShiftOut.ofRotated_append]

theorem shiftBy_rtl_rtr : shiftBy .rtl n (shiftBy .rtr n v cin).value (shiftBy .rtr n v cin).carry =
    { value := v, carry := cin, overflow := false } := by
  rw [shiftBy_rtl hn0 hn, shiftBy_rtr hn0 hn, ShiftOut.ofRotated_bits, rotateLeft_rotateRight _ (by omega),
    ShiftOut.ofRotated_append]

end

/-- Settles O22. -/
theorem rotatesThroughCarry : Obligations.RotatesThroughCarry := by
  rintro n v cin l r hn1 hn rfl rfl
  have hn0 : n ≠ 0 := Nat.one_le_iff_ne_zero.mp hn1
  have hlt : n < 17 := by omega
  rw [shiftBy_rtr_rtl hn0 hn, shiftBy_rtl_rtr hn0 hn, shiftBy_rtl hn0 hn, shiftBy_rtr hn0 hn, ShiftOut.ofRotated_bits,
    ShiftOut.ofRotated_bits]
  exact ⟨fun _ => rotateLeft_getLsbD _ hlt, fun _ => rotateRight_getLsbD _ hlt, rfl, rfl, rfl, rfl⟩

end Sys2Proof.Machine
end

section
/-! PROOF. The saving ALU instructions of the Immediate and Register formats, and the test instructions of all three
formats: each is its format's form of one ALU operation. -/

namespace Sys2Proof.Machine

/-! ### The Immediate format -/

/-- An ALU instruction of the Immediate format with write-back. -/
theorem aluImm_saves (op : AluOp) {f : ImmAlu} {s : State} (hc : condHolds f.cond s.flags = true)
    (hsel : f.sel ≠ .reserved) (hw : s.writeForbidden f.reg = false) :
    ∃ t, aluImm op true f s = .next t ∧
      AluSaved f.sel f.reg (aluOp op (s.advance.readReg f.reg) f.imm s.flags.c) .nul
        { value := s.advance.readReg f.reg, carry := s.flags.c, overflow := false } s t := by
  rw [aluImm, conditional_of_holds hc, if_neg hsel]
  exact aluFinish_saves op f.sel _ f.imm .nul _ hw

/-- Settles O25. -/
theorem immediateSaves : Obligations.ImmediateSaves := by
  rintro f s a hc hsel hw rfl saves
  have alu := fun op => aluImm_saves op hc hsel hw
  exact ⟨alu .add, alu .adc, alu .sub, alu .sbc, alu .and, alu .orr, alu .xor⟩

/-- Settles O26. -/
theorem immediateTests : Obligations.ImmediateTests := by
  rintro f s a hc hsel rfl tests
  have alu := fun op => aluImm_tests op hc hsel
  exact ⟨alu .sub, alu .and, alu .xor⟩

/-! ### The Short Immediate format -/

/-- Settles O28. -/
theorem shortImmediateTests : Obligations.ShortImmediateTests := by
  rintro f s o hc hsel hsh rfl tests
  have alu := fun op => aluShort_tests op hc hsel hsh
  exact ⟨alu .sub, alu .and, alu .xor⟩

/-! ### The Register format -/

/-- An ALU instruction of the Register format with write-back. -/
theorem aluReg_saves (op : AluOp) {f : RegAlu} {s : State} (hc : condHolds f.cond s.flags = true)
    (hsel : f.sel ≠ .reserved) (hsh : f.shift.type ≠ .reserved) (hw : s.writeForbidden f.r1 = false) :
    ∃ t, aluReg op true f s = .next t ∧
      AluSaved f.sel f.r1
        (aluOp op (s.advance.shifted f.shift (s.advance.readReg f.r2)).value (s.advance.readReg f.r3) s.flags.c)
        f.shift.type (s.advance.shifted f.shift (s.advance.readReg f.r2)) s t := by
  rw [aluReg, conditional_of_holds hc]
  exact aluShifted_saves op f.r2 (s.advance.readReg f.r3) hsel hsh hw

/-- Settles O29. -/
theorem registerSaves : Obligations.RegisterSaves := by
  rintro f s o b hc hsel hsh hw rfl rfl saves
  have alu := fun op => aluReg_saves op hc hsel hsh hw
  exact ⟨alu .add, alu .adc, alu .sub, alu .sbc, alu .and, alu .orr, alu .xor⟩

/-- Settles O30. -/
theorem registerTests : Obligations.RegisterTests := by
  rintro f s o b hc hsel hsh rfl rfl tests
  have alu := fun op => aluReg_tests op hc hsel hsh
  exact ⟨alu .sub, alu .and, alu .xor⟩

end Sys2Proof.Machine
end

section
/-! PROOF. Addition, subtraction and the logic operations: the flags against the exact sum, the exact difference and the
bits of the result. Subtraction is addition of the complement. -/

namespace Sys2Proof.Machine

/-! ### Overflow (41_alu.md R181, R182) -/

/-- V is clear where reducing the exact value modulo 2^16 into the signed range leaves it alone. -/
theorem signedOverflow_eq_false_iff (x : Int) : signedOverflow x = false ↔ x.bmod 65536 = x := by
  rw [signedOverflow, bmod_word_eq_self_iff, Bool.or_eq_false_iff, decide_eq_false_iff_not, decide_eq_false_iff_not]
  omega

/-! ### Addition with carry in -/

section
variable (a b : Word) (cin : Bool)

theorem addWithCarry_toNat : (addWithCarry a b cin).1.toNat = (a.toNat + b.toNat + cin.toNat) % 65536 :=
  BitVec.toNat_ofNat _ 16

theorem addWithCarry_c : (addWithCarry a b cin).2.c = decide (65536 ≤ a.toNat + b.toNat + cin.toNat) := rfl

theorem addWithCarry_v : (addWithCarry a b cin).2.v = signedOverflow (a.toInt + b.toInt + cin.toNat) := rfl

/-- Result and carry together are the exact sum: it is below 2^17, so the carry is its bit 16. -/
theorem addWithCarry_exact :
    (addWithCarry a b cin).1.toNat + 65536 * (addWithCarry a b cin).2.c.toNat = a.toNat + b.toNat + cin.toNat := by
  have ha := a.isLt
  have hb := b.isLt
  have hcin := cin.toNat_lt
  rw [addWithCarry_toNat, addWithCarry_c]
  by_cases hcarry : 65536 ≤ a.toNat + b.toNat + cin.toNat
  · rw [decide_eq_true hcarry, Bool.toNat_true]
    omega
  · rw [decide_eq_false hcarry, Bool.toNat_false]
    omega

/-- The result read with a sign is the exact signed sum, reduced into the signed range. -/
theorem addWithCarry_toInt : (addWithCarry a b cin).1.toInt = (a.toInt + b.toInt + cin.toNat).bmod 65536 := by
  change (BitVec.ofNat 16 (a.toNat + b.toNat + cin.toNat)).toInt = _
  rw [BitVec.toInt_ofNat', BitVec.toInt_eq_toNat_bmod a, BitVec.toInt_eq_toNat_bmod b]
  simp only [Int.bmod_def]
  omega

/-- V is clear exactly when the signed reading of the result is the exact signed sum. -/
theorem addWithCarry_v_eq_false_iff : (addWithCarry a b cin).2.v = false ↔
    (addWithCarry a b cin).1.toInt = a.toInt + b.toInt + cin.toNat := by
  rw [addWithCarry_v, signedOverflow_eq_false_iff, addWithCarry_toInt]

/-- Z says whether the result is zero. -/
theorem addWithCarry_z : (addWithCarry a b cin).2.z = true ↔ (addWithCarry a b cin).1 = 0 := beq_iff_eq

end

/-- Settles O15. -/
theorem addExact : Obligations.AddExact :=
  ⟨fun a b cin => ⟨addWithCarry_exact a b cin, addWithCarry_v_eq_false_iff a b cin, rfl, addWithCarry_z a b cin⟩,
    fun _ _ _ => ⟨rfl, rfl⟩⟩

/-! ### Subtraction with borrow in -/

section
variable (a b : Word) (bin : Bool)

/-- The result is the exact difference, with 2^16 added where it is negative, that is where C is clear. -/
theorem subWithBorrow_exact : ((subWithBorrow a b bin).1.toNat : Int) =
    a.toNat - b.toNat - bin.toNat + (if (subWithBorrow a b bin).2.c then 0 else 65536) := by
  have ha := a.isLt
  have hb := b.isLt
  have hbin := bin.toNat_lt
  rw [subWithBorrow, BitVec.toNat_ofInt]
  simp only [decide_eq_true_iff]
  split <;> omega

/-- The result read with a sign is the exact signed difference, reduced into the signed range. -/
theorem subWithBorrow_toInt : (subWithBorrow a b bin).1.toInt = (a.toInt - b.toInt - bin.toNat).bmod 65536 := by
  change (BitVec.ofInt 16 (a.toNat - b.toNat - bin.toNat)).toInt = _
  rw [BitVec.toInt_ofInt, BitVec.toInt_eq_toNat_bmod a, BitVec.toInt_eq_toNat_bmod b]
  simp only [Int.bmod_def]
  omega

/-- V is clear exactly when the signed reading of the result is the exact signed difference. -/
theorem subWithBorrow_v_eq_false_iff : (subWithBorrow a b bin).2.v = false ↔
    (subWithBorrow a b bin).1.toInt = a.toInt - b.toInt - bin.toNat := by
  rw [subWithBorrow_toInt]
  exact signedOverflow_eq_false_iff _

/-- Z says whether the result is zero, whatever was borrowed. -/
theorem subWithBorrow_z_iff_result : (subWithBorrow a b bin).2.z = true ↔ (subWithBorrow a b bin).1 = 0 := beq_iff_eq

end

/-- Settles O16. -/
theorem subExact : Obligations.SubExact :=
  ⟨fun a b bin => ⟨subWithBorrow_exact a b bin, subWithBorrow_v_eq_false_iff a b bin, rfl,
    subWithBorrow_z_iff_result a b bin⟩, fun _ _ _ => ⟨rfl, rfl⟩⟩

/-! ### Subtraction as addition (41_alu.md R217 (b))

The complement of `b` stands for `65535 - b` without a sign and for `-1 - b` with one. -/

theorem toInt_complement (b : Word) : (~~~b).toInt = -1 - b.toInt := by
  have hb := b.isLt
  rw [BitVec.toInt_not, BitVec.toInt_eq_toNat_bmod, Int.bmod_def, Int.bmod_def]
  omega

/-- Settles O19: with carry in, the sum with the complement is the unsigned difference plus 2^16, so that the carry out
says there was no borrow; read with a sign it is the difference itself. -/
theorem subIsAddComplement : Obligations.SubIsAddComplement := by
  intro a b
  have hb := b.isLt
  have hcomplement : (~~~b).toNat = 65535 - b.toNat := BitVec.toNat_not
  refine ⟨?result, ?carry, ?overflow⟩
  case result =>
    rw [subWithBorrow_result, ← BitVec.toNat_inj, BitVec.toNat_sub, addWithCarry_toNat, hcomplement, Bool.toNat_true]
    omega
  case carry =>
    rw [Bool.eq_iff_iff, subWithBorrow_c, addWithCarry_c, decide_eq_true_iff, hcomplement, Bool.toNat_true]
    omega
  case overflow =>
    have hsum : a.toInt - b.toInt = a.toInt + (~~~b).toInt + true.toNat := by
      rw [toInt_complement, Bool.toNat_true]
      omega
    rw [subWithBorrow_v, addWithCarry_v, hsum]

/-! ### The logic operations (41_alu.md R183) -/

/-- The flags of a bitwise result. -/
theorem logicFlags_describe (res : Word) :
    (logicFlags res).2.n = (logicFlags res).1.getLsbD 15 ∧ ((logicFlags res).2.z = true ↔ (logicFlags res).1 = 0) ∧
      (logicFlags res).2.c = false ∧ (logicFlags res).2.v = false :=
  ⟨rfl, beq_iff_eq, rfl, rfl⟩

/-- Settles O17: each operation is one on the bits, with the flags of its result. -/
theorem logicOperations : Obligations.LogicOperations := by
  rintro a b c op g (⟨rfl, rfl⟩ | ⟨rfl, rfl⟩ | ⟨rfl, rfl⟩)
  · exact ⟨fun _ _ => BitVec.getLsbD_and, logicFlags_describe (a &&& b)⟩
  · exact ⟨fun _ _ => BitVec.getLsbD_or, logicFlags_describe (a ||| b)⟩
  · exact ⟨fun _ _ => BitVec.getLsbD_xor, logicFlags_describe (a ^^^ b)⟩

end Sys2Proof.Machine
end

section
/-! PROOF. LOAD of a value: an immediate, a short immediate or a register written to the destination. -/

namespace Sys2Proof.Machine

/-- LOAD of a value where the destination may be written. -/
theorem loadValue_completes {dest : Reg} {s : State} (hw : s.writeForbidden dest = false) (v : Word) :
    loadValue dest v s = .next (s.advance.writeReg dest v) := by
  rw [loadValue, hw, if_neg Bool.false_ne_true]

/-- LOAD of a value in the formats that have shift fields, when these are zero. -/
theorem loadUnshifted_completes {c : Cond} {sh : Shift} {dest : Reg} {s : State} (v : Word)
    (hc : condHolds c s.flags = true) (hw : s.writeForbidden dest = false)
    (hsh : sh = { type := .nul, amount := .literal 0 }) :
    conditional c s (if noShiftFields sh then loadValue dest v s else .refused .shiftFieldsNotZero) =
      .next (s.advance.writeReg dest v) := by
  subst hsh
  exact (conditional_of_holds hc).trans (loadValue_completes hw v)

end Sys2Proof.Machine

namespace Sys2Proof
open Machine

/-- Settles O31: in each format LOAD is one write of a register, past the instruction. -/
theorem loadValue : Obligations.LoadValue := by
  refine fun s => ⟨fun f hc hw => ?imm, fun f hc hw hsh => ?short, fun f hc hw hsh => ?reg⟩
  case imm => exact ⟨_, (conditional_of_holds hc).trans (loadValue_completes hw f.imm), s.loaded_advance f.reg f.imm⟩
  case short => exact ⟨_, loadUnshifted_completes (ext8 f.imm8) hc hw hsh, s.loaded_advance f.reg _⟩
  case reg => exact ⟨_, loadUnshifted_completes (s.advance.readReg f.r3) hc hw hsh, s.loaded_advance f.r1 _⟩

end Sys2Proof
end

section
/-! PROOF. A bus error on a data access: the Bus Fault in STOR and LOAD, at the address each presents, once the checks
before the access pass (42_memory_access.md R241). -/

namespace Sys2Proof.Machine

/-- The platform answers with a bus error where a range of its list for that kind of access covers the address. -/
theorem State.busError_iff (s : State) (a : Addr) (kind : AccessKind) :
    s.busError a kind = true ↔ ∃ r ∈ s.busErrors, r.kind = kind ∧ r.first ≤ a ∧ a ≤ r.last := by
  simp only [State.busError, List.any_eq_true, Bool.and_eq_true, beq_iff_eq, decide_eq_true_iff, and_assoc]

/-! ### The access in each shared operation -/

section
variable {s : State} {pr : Pair} {off : Word}

theorem storeWord_busFaults (data : Word) (htrap : s.offsetTraps (s.advance.regs.get (pairLow pr)) off = false)
    (hbus : s.busError (s.advance.effectiveAddr pr off) .store = true) :
    storeWord pr off data s = raiseFault .bus 4 (s.advance.effectiveAddr pr off) s := by
  simp only [storeWord, State.advance_offsetTraps, State.advance_busError, htrap, hbus, Bool.false_eq_true, if_false,
    if_true]

theorem storePreDec_busFaults (data : Word) (hdec : s.offsetTraps (s.advance.regs.get (pairLow pr)) (-1) = false)
    (htrap : s.offsetTraps (s.advance.regs.get (pairLow pr) - 1) off = false)
    (hbus : s.busError (s.advance.preDecAddr pr off) .store = true) :
    storePreDec pr off data s = raiseFault .bus 4 (s.advance.preDecAddr pr off) s := by
  simp only [storePreDec, State.advance_offsetTraps, State.advance_busError, hdec, htrap, hbus, Bool.or_self,
    Bool.false_eq_true, if_false, if_true]

variable {dest : Reg} (g : Word → Word) (hw : s.writeForbidden dest = false)
  (htrap : s.offsetTraps (s.advance.regs.get (pairLow pr)) off = false)
  (hbus : s.busError (s.advance.effectiveAddr pr off) .load = true)
include hw htrap hbus

theorem loadWord_busFaults :
    loadWord dest pr off g s = raiseFault .bus 4 (s.advance.effectiveAddr pr off) s := by
  simp only [loadWord, State.advance_offsetTraps, State.advance_busError, hw, htrap, hbus, Bool.false_eq_true, if_false,
    if_true]

theorem loadPostInc_busFaults (hinc : s.offsetTraps (s.advance.regs.get (pairLow pr)) 1 = false) :
    loadPostInc dest pr off g s = raiseFault .bus 4 (s.advance.effectiveAddr pr off) s := by
  simp only [loadPostInc, State.advance_offsetTraps, State.advance_busError, hw, htrap, hinc, hbus, Bool.or_self,
    Bool.false_eq_true, if_false, if_true]

end

/-- Settles O43: each instruction is the fault its access raises. -/
theorem dataBusFault : Obligations.DataBusFault := by
  refine ⟨fun s hcan => ?access, State.busError_iff⟩
  have fault : ∀ {r : Result} {a : Addr}, r = raiseFault .bus 4 a s → faults .bus 4 a s r :=
    fun hr => hr ▸ faults_raiseFault 4 _ hcan
  refine ⟨?off, ?idx⟩
  case off =>
    rintro f lo ea pre hc rfl rfl rfl
    have runs : ∀ k, conditional f.cond s k = k := fun _ => conditional_of_holds hc
    refine ⟨fun htrap hbus => ?store, fun hdec htrap hbus => ?preDec,
      fun htrap hw hbus => ⟨?load, fun hinc => ?postInc⟩⟩
    case store => exact fault ((runs _).trans (storeWord_busFaults _ htrap hbus))
    case preDec => exact fault ((runs _).trans (storePreDec_busFaults _ hdec htrap hbus))
    case load => exact fault ((runs _).trans (loadWord_busFaults id hw htrap hbus))
    case postInc => exact fault ((runs _).trans (loadPostInc_busFaults id hw htrap hbus hinc))
  case idx =>
    rintro f lo off ea pre hc hsh rfl rfl rfl rfl
    have runs : ∀ k, conditional f.cond s (withShiftType f.shift k) = k :=
      fun _ => conditional_withShiftType_of_holds hc hsh
    refine ⟨fun htrap hbus => ?store, fun hdec htrap hbus => ?preDec,
      fun htrap hw hbus => ⟨?load, fun hinc => ?postInc⟩⟩
    case store => exact fault ((runs _).trans (storeWord_busFaults _ htrap hbus))
    case preDec => exact fault ((runs _).trans (storePreDec_busFaults _ hdec htrap hbus))
    case load => exact fault ((runs _).trans (loadWord_busFaults _ hw htrap hbus))
    case postInc => exact fault ((runs _).trans (loadPostInc_busFaults _ hw htrap hbus hinc))

end Sys2Proof.Machine
end

section
/-! PROOF. The control-flow instructions: the pair, the link and the target each leaves when no check stops it, and where a
check does: the privilege of the instruction, a destination that names no pair, a pair other than `p`. -/

namespace Sys2Proof.Machine

theorem OnlyRegs.mono {c d : List Reg} {s t : State} (h : OnlyRegs c s t) (hsub : c ⊆ d) : OnlyRegs d s t :=
  ⟨h.regs.mono hsub, h.memory, h.unit⟩

/-! ### Pairs -/

theorem pairHigh_ne_pairLow (pr : Pair) : pairHigh pr ≠ pairLow pr := by cases pr <;> decide

/-- `pl` is the high register of no pair. -/
theorem pl_ne_pairHigh (pr : Pair) : Reg.pl ≠ pairHigh pr := by cases pr <;> decide

theorem State.setPair_get_high (s : State) (pr : Pair) (hi lo : Word) :
    (s.setPair pr hi lo).regs.get (pairHigh pr) = hi := by
  rw [State.setPair_regs, RegFile.get_set_ne _ _ (pairHigh_ne_pairLow pr), RegFile.get_set_self]

theorem State.setPair_get_low (s : State) (pr : Pair) (hi lo : Word) :
    (s.setPair pr hi lo).regs.get (pairLow pr) = lo := RegFile.get_set_self _ _ _

/-- Writing a pair changes its two registers only. -/
theorem State.onlyRegs_setPair (s : State) (pr : Pair) (hi lo : Word) :
    OnlyRegs [pairLow pr, pairHigh pr] s (s.setPair pr hi lo) :=
  (s.onlyRegs_setReg (pairHigh pr) hi).trans (State.onlyRegs_setReg _ (pairLow pr) lo)

/-- A destination of LDEA names the pair it is the high register of. -/
theorem pairOfHigh_pairHigh (pr : Pair) : pairOfHigh (pairHigh pr) = some pr := by cases pr <;> rfl

/-- It names none when it is not a high register. -/
theorem pairOfHigh_of_not_mem {r : Reg} (h : r ∉ [Reg.lh, .ah, .sh, .ph]) : pairOfHigh r = none := by
  revert h
  cases r <;> decide

/-! ### Where no check stops the instruction -/

/-- An offset of zero stays in the segment. -/
theorem State.offsetTraps_zero (s : State) (lo : Word) : s.offsetTraps lo 0 = false := by
  have hstays : ¬offsetOverflows lo 0 = true := fun h => (offsetOverflows_iff lo 0).mp h (by simp)
  rw [State.offsetTraps, Bool.eq_false_iff.mpr hstays, Bool.and_false]

/-- RETS asks the condition that always holds (45_meta_instructions.md R321). -/
theorem exec_rets (s : State) : exec .rets s = ldeaInto .p .l 0 s :=
  conditional_of_holds (c := .al) (s := s) (k := ldeaInto .p .l 0 s) rfl

/-- LDEA with its destination field. -/
theorem ldea_eq_ldeaInto {dest : Reg} {dst : Pair} (hdest : dest = pairHigh dst) (src : Pair) (off : Word) (s : State) :
    ldea dest src off s = ldeaInto dst src off s := by
  rw [ldea, hdest, pairOfHigh_pairHigh]

section
variable {s : State} {pr : Pair} {off : Word} (htrap : s.offsetTraps (s.advance.regs.get (pairLow pr)) off = false)
include htrap

theorem withOffset_completes (k : State → Result) : withOffset pr off s k = k s.advance :=
  if_neg (Bool.eq_false_iff.mp ((s.advance_offsetTraps _ off).trans htrap))

variable (hsup : s.protectedMode = false)
include hsup

/-- LDEA writes the destination pair. -/
theorem ldeaInto_completes (dst : Pair) :
    ∃ t, ldeaInto dst pr off s = .next t ∧ t.regs.get (pairHigh dst) = s.advance.regs.get (pairHigh pr) ∧
      t.regs.get (pairLow dst) = s.advance.regs.get (pairLow pr) + off ∧ (dst ≠ .p → movedOn s t) ∧
      OnlyRegs [pairHigh dst, pairLow dst, .pl] s t := by
  have hpair := s.advance.onlyRegs_setPair dst (s.advance.regs.get (pairHigh pr)) (s.advance.offsetLow pr off)
  refine ⟨s.advance.setPair dst (s.advance.regs.get (pairHigh pr)) (s.advance.offsetLow pr off), ?runs,
    State.setPair_get_high _ dst _ _, State.setPair_get_low _ dst _ _, fun hdst => ?next, ?frame⟩
  case runs => rw [ldeaInto, hsup, if_neg Bool.false_ne_true, withOffset_completes htrap]
  case next => exact movedOn_of_regsKept hpair.regs (by simp [pl_ne_pairLow hdst, pl_ne_pairHigh])
  case frame => exact (s.onlyRegs_advance.trans hpair).mono (by simp)

/-- LJSR links through `l` and writes `p`. -/
theorem jumpSubroutine_completes :
    ∃ t, jumpSubroutine pr off s = .next t ∧ t.regs.lh = s.regs.ph ∧ t.regs.ll = s.regs.pl + 2 ∧
      t.regs.ph = s.advance.regs.get (pairHigh pr) ∧ t.regs.pl = s.advance.regs.get (pairLow pr) + off ∧
      OnlyRegs [.lh, .ll, .ph, .pl] s t := by
  refine ⟨(s.advance.setPair .l s.advance.regs.ph s.advance.regs.pl).setPair .p (s.advance.regs.get (pairHigh pr))
    (s.advance.offsetLow pr off), ?runs, rfl, rfl, rfl, rfl, ?frame⟩
  case runs => rw [jumpSubroutine, hsup, if_neg Bool.false_ne_true, withOffset_completes htrap]
  case frame =>
    exact ((s.onlyRegs_advance.trans (State.onlyRegs_setPair _ .l _ _)).trans
      (State.onlyRegs_setPair _ .p _ _)).mono (by decide)

end

section
variable {s : State} {pr : Pair} {off : Word} (hp : pr = .p) (htrap : s.offsetTraps (s.regs.pl + 2) off = false)
include hp htrap

/-- BRAN, in either mode, moves `pl` alone. -/
theorem branch_completes : ∃ t, branch pr off s = .next t ∧ t.regs.pl = s.regs.pl + 2 + off ∧ OnlyRegs [.pl] s t := by
  subst hp
  refine ⟨s.advance.setReg .pl (s.advance.offsetLow .p off), ?runs, rfl, ?frame⟩
  case runs => rw [branch, if_pos rfl, withOffset_completes (pr := .p) htrap]
  case frame => exact (s.onlyRegs_advance.trans (State.onlyRegs_setReg _ .pl _)).mono (by decide)

/-- BRSR links through `l` and writes `pl`. -/
theorem branchSubroutine_completes (hsup : s.protectedMode = false) :
    ∃ t, branchSubroutine pr off s = .next t ∧ t.regs.lh = s.regs.ph ∧ t.regs.ll = s.regs.pl + 2 ∧
      t.regs.pl = s.regs.pl + 2 + off ∧ OnlyRegs [.lh, .ll, .pl] s t := by
  subst hp
  refine ⟨(s.advance.setPair .l s.advance.regs.ph s.advance.regs.pl).setReg .pl (s.advance.offsetLow .p off), ?runs, rfl,
    rfl, rfl, ?frame⟩
  case runs =>
    rw [branchSubroutine, hsup, if_neg (not_not_intro rfl), if_neg Bool.false_ne_true,
      withOffset_completes (pr := .p) htrap]
  case frame =>
    exact ((s.onlyRegs_advance.trans (State.onlyRegs_setPair _ .l _ _)).trans
      (State.onlyRegs_setReg _ .pl _)).mono (by decide)

end

/-! ### Where a check does -/

theorem ldea_of_not_mem {dest : Reg} (src : Pair) (off : Word) (s : State) (hdest : dest ∉ [Reg.lh, .ah, .sh, .ph]) :
    ldea dest src off s = .refused .destinationNotAPair := by
  rw [ldea, pairOfHigh_of_not_mem hdest]

theorem branch_of_ne {pr : Pair} (off : Word) (s : State) (hp : pr ≠ .p) :
    branch pr off s = .refused .branchPairNotProgramCounter := if_neg hp

theorem branchSubroutine_of_ne {pr : Pair} (off : Word) (s : State) (hp : pr ≠ .p) :
    branchSubroutine pr off s = .refused .branchPairNotProgramCounter := if_pos hp

section
variable {s : State} (hprot : s.protectedMode = true)
include hprot

theorem branchSubroutine_protected {pr : Pair} (off : Word) (hp : pr = .p) :
    branchSubroutine pr off s = .refused .brsrInProtectedMode := (if_neg (not_not_intro hp)).trans (if_pos hprot)

theorem jumpSubroutine_protected (src : Pair) (off : Word) :
    jumpSubroutine src off s = raiseFault .privilegeViolation 2 0 s := if_pos hprot

theorem ldeaInto_protected (dst src : Pair) (off : Word) :
    ldeaInto dst src off s = raiseFault .privilegeViolation 2 0 s := if_pos hprot

theorem ldea_protected {dest : Reg} (src : Pair) (off : Word) (hdest : dest ∈ [Reg.lh, .ah, .sh, .ph]) :
    ldea dest src off s = raiseFault .privilegeViolation 2 0 s := by
  obtain ⟨dst, hdst⟩ := pairOfHigh_of_mem hdest
  rw [ldea, hdst]
  exact ldeaInto_protected hprot dst src off

end

end Sys2Proof.Machine

namespace Sys2Proof
open Machine

/-- Settles O44: each of the five is LDEA into a pair. RETS has an offset of zero, which never traps. -/
theorem loadEffectiveAddress : Obligations.LoadEffectiveAddress := by
  intro s hsup puts
  have lands : ∀ {i : Instr} {dst src : Pair} {off : Word}, exec i s = ldeaInto dst src off s →
      s.offsetTraps (s.advance.regs.get (pairLow src)) off = false → puts i dst src off := by
    intro i dst src off hexec htrap
    obtain ⟨t, hnext, hleft⟩ := ldeaInto_completes htrap hsup dst
    exact ⟨t, hexec.trans hnext, hleft⟩
  refine ⟨fun f dst hc hdst => ?off, ?idx, fun f hc => ?jumpOff, ?jumpIdx, ?rets⟩
  case off => exact lands ((conditional_of_holds hc).trans (ldea_eq_ldeaInto hdst f.pair f.imm s))
  case idx =>
    rintro f dst off hc hdst hzero rfl
    exact lands ((conditional_unshifted_of_holds hc hzero).trans (ldea_eq_ldeaInto hdst f.pair _ s))
  case jumpOff => exact lands (conditional_of_holds hc)
  case jumpIdx =>
    rintro f off hc hzero rfl
    exact lands (conditional_unshifted_of_holds hc hzero)
  case rets => exact lands (exec_rets s) (s.offsetTraps_zero _)

/-- Settles O45: either format runs the branch of its offset. -/
theorem branch : Obligations.Branch := by
  refine fun s => ⟨fun f hc hp htrap => ?off, ?idx⟩
  case off =>
    obtain ⟨t, hnext, hleft⟩ := branch_completes hp htrap
    exact ⟨t, (conditional_of_holds hc).trans hnext, hleft⟩
  case idx =>
    rintro f off hc hp hzero rfl htrap
    obtain ⟨t, hnext, hleft⟩ := branch_completes hp htrap
    exact ⟨t, (conditional_unshifted_of_holds hc hzero).trans hnext, hleft⟩

/-- Settles O46: either format runs the jump of its offset. -/
theorem jumpSubroutine : Obligations.JumpSubroutine := by
  intro s hsup calls
  have lands : ∀ {i : Instr} {src : Pair} {off : Word}, exec i s = Machine.jumpSubroutine src off s →
      s.offsetTraps (s.advance.regs.get (pairLow src)) off = false → calls i src off := by
    intro i src off hexec htrap
    obtain ⟨t, hnext, hleft⟩ := jumpSubroutine_completes htrap hsup
    exact ⟨t, hexec.trans hnext, hleft⟩
  refine ⟨fun f hc => lands (conditional_of_holds hc), ?idx⟩
  rintro f off hc hzero rfl
  exact lands (conditional_unshifted_of_holds hc hzero)

/-- Settles O47: either format runs the branch with link of its offset. -/
theorem branchSubroutine : Obligations.BranchSubroutine := by
  intro s hsup calls
  refine ⟨fun f hc hp htrap => ?off, ?idx⟩
  case off =>
    obtain ⟨t, hnext, hleft⟩ := branchSubroutine_completes hp htrap hsup
    exact ⟨t, (conditional_of_holds hc).trans hnext, hleft⟩
  case idx =>
    rintro f off hc hp hzero rfl htrap
    obtain ⟨t, hnext, hleft⟩ := branchSubroutine_completes hp htrap hsup
    exact ⟨t, (conditional_unshifted_of_holds hc hzero).trans hnext, hleft⟩

/-- Settles O48: each instruction is the fault or the refusal of the shared operation it runs. -/
theorem controlFlowChecks : Obligations.ControlFlowChecks := by
  refine fun s => ⟨fun hprot hcan => ?privilege, fun f hc => ?off, fun f hc hzero => ?idx⟩
  case privilege =>
    have fault : ∀ {r : Result}, r = raiseFault .privilegeViolation 2 0 s → faults .privilegeViolation 2 0 s r :=
      fun hr => hr ▸ faults_raiseFault 2 0 hcan
    refine ⟨?rets, fun f hc => ⟨?jumpSubOff, fun hdest => ?leaOff⟩, fun f hc hzero => ⟨?jumpSubIdx, fun hdest => ?leaIdx⟩,
      fun f hc => ?jumpOff, fun f hc hzero => ?jumpIdx⟩
    case rets => exact fault ((exec_rets s).trans (ldeaInto_protected hprot .p .l 0))
    case jumpSubOff => exact fault ((conditional_of_holds hc).trans (jumpSubroutine_protected hprot f.pair f.imm))
    case leaOff => exact fault ((conditional_of_holds hc).trans (ldea_protected hprot f.pair f.imm hdest))
    case jumpSubIdx =>
      exact fault ((conditional_unshifted_of_holds hc hzero).trans (jumpSubroutine_protected hprot f.pair _))
    case leaIdx => exact fault ((conditional_unshifted_of_holds hc hzero).trans (ldea_protected hprot f.pair _ hdest))
    case jumpOff => exact fault ((conditional_of_holds hc).trans (ldeaInto_protected hprot .p f.pair f.imm))
    case jumpIdx => exact fault ((conditional_unshifted_of_holds hc hzero).trans (ldeaInto_protected hprot .p f.pair _))
  case off =>
    have runs : ∀ k, conditional f.cond s k = k := fun _ => conditional_of_holds hc
    exact ⟨fun hdest => (runs _).trans (ldea_of_not_mem f.pair f.imm s hdest),
      fun hp => ⟨(runs _).trans (branch_of_ne f.imm s hp), (runs _).trans (branchSubroutine_of_ne f.imm s hp)⟩,
      fun hp hprot => (runs _).trans (branchSubroutine_protected hprot f.imm hp)⟩
  case idx =>
    have runs : ∀ k, conditional f.cond s (unshifted f.shift k) = k := fun _ => conditional_unshifted_of_holds hc hzero
    exact ⟨fun hdest => (runs _).trans (ldea_of_not_mem f.pair _ s hdest),
      fun hp => ⟨(runs _).trans (branch_of_ne _ s hp), (runs _).trans (branchSubroutine_of_ne _ s hp)⟩,
      fun hp hprot => (runs _).trans (branchSubroutine_protected hprot _ hp)⟩

end Sys2Proof
end

section
/-! PROOF. The calls of the exception unit by name: the operation each reaches, on the state after fetch with the call word
in the cause register. Then the trap, the return from it, and the two together. -/

namespace Sys2Proof.Machine

/-! ### The state an operation runs on -/

/-- The state after fetch with the call word in the cause register (44_coprocessor.md R294, R301). -/
def State.called (s : State) (w : Word) : State := { s.advance with cause := w }

section
variable (s : State) (w : Word)

/-- A call changes `pl` and the cause register, before its operation changes anything. -/
theorem State.regsKept_called : regsKept [.pl] s (s.called w) := s.onlyRegs_advance.regs

theorem State.memoryKept_called : memoryKept s (s.called w) := ⟨fun _ => rfl, rfl⟩

theorem State.inputsKept_called : InputsKept s (s.called w) := ⟨rfl, rfl, rfl, rfl, rfl, rfl⟩

theorem State.unitKeptButCause_called : UnitKeptButCause s (s.called w) :=
  ⟨rfl, rfl, rfl, rfl, rfl, s.inputsKept_called w⟩

theorem State.movedOn_called : movedOn s (s.called w) := rfl

end

/-- An entry from the state after fetch saves, keeps and reads what an entry from the state before would. -/
theorem Entered.of_called {s t : State} {w : Word} {v : BitVec 8} {l : Fin 8} {k : Fin 7} {ret : BitVec 32}
    (h : Entered v l k ret (s.called w) t) : Entered v l k ret s t where
  target := h.target
  level := h.level
  waiting := h.waiting
  saved := by
    rw [h.saved, ← s.srFull_advance]
    rfl
  others := h.others
  supervisor := h.supervisor
  traceOff := h.traceOff
  status := h.status
  regs := ((s.regsKept_called w).trans h.regs).mono (by decide)
  memory := (s.memoryKept_called w).trans h.memory
  inputs := (s.inputsKept_called w).trans h.inputs

/-! ### The operation a call reaches -/

section
variable (par : BitVec 8) (s : State)

/-- The call word of EXCP reaches its operation in either mode. -/
theorem copCall_excp : copCall (0x11#8 ++ par) s = callExcp par s (s.called (0x11#8 ++ par)) := by
  simp [copCall, callWord_fields, State.unitPresent, State.called]

variable {s} (hsup : s.protectedMode = false)
include hsup

/-- The call words of RETE, ETFR and ETTR reach theirs in supervisor mode. -/
theorem copCall_rete : copCall (0x1A#8 ++ par) s = returnFromException (s.called (0x1A#8 ++ par)) := by
  simp [copCall, callWord_fields, State.unitPresent, State.called, hsup]

theorem copCall_etfr : copCall (0x1C#8 ++ par) s = callEtfr par (s.called (0x1C#8 ++ par)) := by
  simp [copCall, callWord_fields, State.unitPresent, State.called, hsup]

theorem copCall_ettr : copCall (0x1D#8 ++ par) s = callEttr par (s.called (0x1D#8 ++ par)) := by
  simp [copCall, callWord_fields, State.unitPresent, State.called, hsup]

end

/-- EXCP, when its condition holds. -/
theorem exec_excp {f : UnitCall} {s : State} (hc : condHolds f.cond s.flags = true) :
    exec (.excp f) s = callExcp f.par s (s.called (0x11#8 ++ f.par)) :=
  (conditional_of_holds hc).trans (copCall_excp f.par s)

section
variable {f : UnitCall} {s : State} (hc : condHolds f.cond s.flags = true) (hsup : s.protectedMode = false)
include hc hsup

/-- RETE, ETFR and ETTR, when their condition holds, in supervisor mode. -/
theorem exec_rete : exec (.rete f) s = returnFromException (s.called (0x1A#8 ++ f.par)) :=
  (conditional_of_holds hc).trans (copCall_rete f.par hsup)

theorem exec_etfr : exec (.etfr f) s = callEtfr f.par (s.called (0x1C#8 ++ f.par)) :=
  (conditional_of_holds hc).trans (copCall_etfr f.par hsup)

theorem exec_ettr : exec (.ettr f) s = callEttr f.par (s.called (0x1D#8 ++ f.par)) :=
  (conditional_of_holds hc).trans (copCall_ettr f.par hsup)

end

/-! ### EXCP (44_coprocessor.md R295) -/

section
variable {v : BitVec 8} {s : State} (u : State)

/-- In protected mode a vector below 0x80 is a privilege fault. -/
theorem callExcp_privileged (hp : s.protectedMode = true) (hv : v.toNat < 0x80) :
    callExcp v s u = raiseFault .privilegeViolation 2 0 s := by
  have hlt : v < 0x80#8 := hv
  rw [callExcp, hp, decide_eq_true hlt, Bool.and_self, if_pos rfl]

/-- In supervisor mode one below 0x60 stops. -/
theorem callExcp_outOfRange (hp : s.protectedMode = false) (hv : v.toNat < 0x60) :
    callExcp v s u = .refused .excpVectorOutOfRange := by
  have hlt : v < 0x60#8 := hv
  rw [callExcp, hp, decide_eq_true hlt, Bool.false_and, if_neg Bool.false_ne_true, Bool.not_false, Bool.and_self, if_pos rfl]

variable (hv : (if s.protectedMode then 0x80 else 0x60) ≤ v.toNat)
include hv

/-- With a vector in the range of the mode only the check of the level is left. -/
theorem callExcp_inRange :
    callExcp v s u = if s.level ≠ 0 then .refused .excpInsideHandler else enterException v 1 0 u.pc u := by
  cases hp : s.protectedMode with
  | true =>
    rw [hp, if_pos rfl] at hv
    have hge : ¬v < 0x80#8 := Nat.not_lt.mpr hv
    rw [callExcp, hp, decide_eq_false hge, Bool.and_false, if_neg Bool.false_ne_true, Bool.not_true, Bool.false_and,
      if_neg Bool.false_ne_true]
  | false =>
    rw [hp, if_neg Bool.false_ne_true] at hv
    have hge : ¬v < 0x60#8 := Nat.not_lt.mpr hv
    rw [callExcp, hp, decide_eq_false hge, Bool.false_and, if_neg Bool.false_ne_true, Bool.and_false,
      if_neg Bool.false_ne_true]

/-- From level 0 the trap is entered. -/
theorem callExcp_enters (hl : s.level = 0) : callExcp v s u = enterException v 1 0 u.pc u :=
  (callExcp_inRange u hv).trans (if_neg (not_not_intro hl))

/-- Inside a handler it stops. -/
theorem callExcp_insideHandler (hl : s.level ≠ 0) : callExcp v s u = .refused .excpInsideHandler :=
  (callExcp_inRange u hv).trans (if_pos hl)

end

/-- Settles O49: the entry is made from the state after fetch. -/
theorem trapEntry : Obligations.TrapEntry := by
  intro f s hc hl hv hread
  obtain ⟨t, hnext⟩ :=
    enterException_completes (s := s.called (0x11#8 ++ f.par)) 1 0 (s.called (0x11#8 ++ f.par)).pc hread
  obtain ⟨hentered, hpending, hcause, hmeta, -, -⟩ := entered_of_enterException hnext
  exact ⟨t, (exec_excp hc).trans ((callExcp_enters _ hv hl).trans hnext), hentered.of_called, hpending, hmeta, hcause⟩

/-! ### RETE (44_coprocessor.md R297) -/

/-- At level 0 there is nothing to return from. -/
theorem returnFromException_outsideHandler {s : State} (hl : s.level = 0) :
    returnFromException s = .refused .reteOutsideHandler := if_pos hl

/-- The link register of a level above 0 is that of the level less one. -/
theorem linkOfLevel_eq : ∀ {l : Fin 8} {k : Fin 7}, l.val = k.val + 1 → linkOfLevel l = k := by decide

/-- The state a return through a link register goes back to. -/
def State.returnedThrough (s : State) (k : LinkReg) : State :=
  ({ s with level := k.level }.setReg .sr (dropEA k.sr)).setPc k.addr

/-- Above level 0 the return is through the link register of the level less one. -/
theorem returnFromException_completes {s : State} {k : Fin 7} (hl : s.level.val = k.val + 1) :
    returnFromException s = .next (s.returnedThrough s.links[k]) := by
  have hne : s.level ≠ 0 := fun h => by simp [h] at hl
  obtain rfl := linkOfLevel_eq hl
  exact if_neg hne

/-- Its status register is the one saved, less bit 13. -/
theorem State.returnedThrough_sr (s : State) (k : LinkReg) : (s.returnedThrough k).regs.sr = dropEA k.sr := by
  simp [State.returnedThrough, RegFile.set_sr]

/-- Of the registers only `sr` and the program counter change. -/
theorem State.regsKept_returnedThrough (s : State) (k : LinkReg) : regsKept [.sr, .ph, .pl] s (s.returnedThrough k) := by
  intro r hr
  simp only [List.mem_cons, List.not_mem_nil, or_false, not_or] at hr
  simp [State.returnedThrough, RegFile.get_set, hr]

/-! ### What a trap saves -/

/-- At level 0 a status register without bit 13 is what an entry saves and a return restores. -/
theorem State.Inv.srFull_bit {s : State} (h : s.Inv) (hl : s.level = 0) (j : Nat) :
    (s.srFull.getLsbD j && decide (j ≠ 13)) = s.regs.sr.getLsbD j := by
  rw [State.srFull, if_pos hl, dropEA_bit]
  by_cases hj : j = 13
  · rw [hj, h.noStoredEA]
    rfl
  · rw [decide_eq_true hj, Bool.and_true, Bool.and_true]

/-- The halves of the program counter. -/
theorem State.regs_of_pc {s : State} {hi lo : Word} (h : s.pc = hi ++ lo) : s.regs.ph = hi ∧ s.regs.pl = lo := by
  have hhigh := congrArg (·.extractLsb' 16 16) h
  have hlow := congrArg (·.extractLsb' 0 16) h
  simp only [State.pc, BitVec.extractLsb'_append_eq_left, BitVec.extractLsb'_append_eq_right] at hhigh hlow
  exact ⟨hhigh, hlow⟩

end Sys2Proof.Machine

namespace Sys2Proof
open Machine

/-- Settles O51. -/
theorem returnFromException : Obligations.ReturnFromException := by
  intro f s k hc hsup hl
  have hreturn := returnFromException_completes (s := s.called (0x1A#8 ++ f.par)) hl
  refine ⟨_, (exec_rete hc hsup).trans hreturn, State.setPc_pc _ _, rfl, fun j => ?status, ?regs, ⟨fun _ => rfl, rfl⟩, rfl,
    rfl, rfl, rfl, ⟨rfl, rfl, rfl, rfl, rfl, rfl⟩⟩
  case status =>
    rw [State.returnedThrough_sr, dropEA_bit]
    rfl
  case regs =>
    have hkept := (s.regsKept_called (0x1A#8 ++ f.par)).trans (State.regsKept_returnedThrough _ s.links[k])
    exact hkept.mono (by decide)

/-- Settles O57: link register 0, which the trap writes, holds what the return needs to go back. -/
theorem trapReturns : Obligations.TrapReturns := by
  intro f g s hinv hc hg hl hv hread
  obtain ⟨t, hexcp, hentered, hpending, hmeta, -⟩ := trapEntry f s hc hl hv hread
  obtain ⟨u, hrete, hpc, hlevel, hstatus, hregs, hmem, -, hpending', -, hmeta', -⟩ :=
    returnFromException g t 0 (by rw [hg]; rfl) hentered.supervisor (by rw [hentered.level]; rfl)
  rw [hentered.saved] at hpc hlevel hstatus
  obtain ⟨hph, hpl⟩ := State.regs_of_pc hpc
  have hsr : u.regs.sr = s.regs.sr := by
    apply BitVec.eq_of_getLsbD_eq
    intro j _
    rw [hstatus, hinv.srFull_bit hl]
  refine ⟨t, u, hexcp, hrete, hpl, ?regs, hentered.memory.trans hmem, hlevel, hpending'.trans hpending,
    hmeta'.trans hmeta⟩
  case regs =>
    intro r hr
    by_cases hr' : r ∈ [Reg.sr, .ph, .pl]
    · simp only [List.mem_cons, List.not_mem_nil, or_false] at hr hr'
      obtain rfl | rfl | rfl := hr'
      · exact hsr
      · exact hph
      · exact absurd rfl hr
    · exact (hregs r hr').trans (hentered.regs r hr')

end Sys2Proof
end

section
/-! PROOF. ETFR and ETTR: what a transfer out of a link register moves into registers, and what a transfer into one leaves of
it and of the others. -/

namespace Sys2Proof.Machine

/-! ### Frames of a call and its operation -/

theorem UnitKeptButCause.trans {s t u : State} (h : UnitKeptButCause s t) (h' : UnitKeptButCause t u) :
    UnitKeptButCause s u where
  level := h'.level.trans h.level
  waiting := h'.waiting.trans h.waiting
  pending := h'.pending.trans h.pending
  links := h'.links.trans h.links
  faultMeta := h'.faultMeta.trans h.faultMeta
  inputs := h.inputs.trans h'.inputs

theorem OnlyRegs.refl (c : List Reg) (s : State) : OnlyRegs c s s :=
  ⟨fun _ _ => rfl, ⟨fun _ => rfl, rfl⟩, ⟨rfl, rfl, rfl, rfl, rfl, ⟨rfl, rfl, rfl, rfl, rfl, rfl⟩⟩, rfl⟩

/-- A change that is made or not. -/
theorem OnlyRegs.ite {c : List Reg} {s t : State} (b : Bool) (h : OnlyRegs c s t) :
    OnlyRegs c s (if b then t else s) := by
  cases b with
  | true => exact h
  | false => exact .refl c s

/-! ### Reading a link register (44_coprocessor.md R299) -/

section
variable {s : State} {n : BitVec 4}

theorem State.linkAddr_of_link {k : Fin 7} (h : n.toNat = k.val) : s.linkAddr n = some s.links[k].addr := by
  simp [State.linkAddr, h]

theorem State.linkSr_of_link {k : Fin 7} (h : n.toNat = k.val) : s.linkSr n = some s.links[k].sr := by
  simp [State.linkSr, h]

theorem State.linkAddr_of_seven (h : n = 7) : s.linkAddr n = some s.faultMeta.addr := by subst h; rfl

theorem State.linkSr_of_seven (h : n = 7) : s.linkSr n = some s.faultMeta.sr := by subst h; rfl

theorem State.linkAddr_of_ge (h : 8 ≤ n.toNat) : s.linkAddr n = none := by
  rw [State.linkAddr, dif_neg (by omega), if_neg (by omega)]

end

/-- Where the index names a link register, its halves are moved into registers as the parameter asks. -/
theorem callEtfr_completes {par : BitVec 8} {u : State} {addr : BitVec 32} {sr : Word}
    (haddr : u.linkAddr (linkIndex par) = some addr) (hsr : u.linkSr (linkIndex par) = some sr) :
    ∃ t, callEtfr par u = .next t ∧ OnlyRegs [.r7, .ah, .al] u t ∧
      (t.regs.ah, t.regs.al) = (if par.getLsbD 4 then (addr.extractLsb' 16 16, addr.extractLsb' 0 16)
        else (u.regs.ah, u.regs.al)) ∧
      t.regs.r7 = (if par.getLsbD 5 then sr else u.regs.r7) := by
  refine ⟨_, by rw [callEtfr, haddr, hsr], ?frame, ?address, ?status⟩
  case frame =>
    have hpair :=
      (u.onlyRegs_setReg .ah (addr.extractLsb' 16 16)).trans (State.onlyRegs_setReg _ .al (addr.extractLsb' 0 16))
    exact ((hpair.ite _).trans ((State.onlyRegs_setReg _ .r7 sr).ite _)).mono (by decide)
  all_goals split_ifs <;> rfl

/-- An index past the fault metadata stops. -/
theorem callEtfr_outOfRange {par : BitVec 8} (u : State) (h : 8 ≤ (linkIndex par).toNat) :
    callEtfr par u = .refused .linkIndexOutOfRange := by
  rw [callEtfr, State.linkAddr_of_ge h]

/-- Settles O53: the frame is that of the call and of the registers written. -/
theorem transferFromLink : Obligations.TransferFromLink := by
  intro f s hc hsup moves
  have hexec := exec_etfr hc hsup
  have completes : ∀ {addr sr}, (s.called (0x1C#8 ++ f.par)).linkAddr (linkIndex f.par) = some addr →
      (s.called (0x1C#8 ++ f.par)).linkSr (linkIndex f.par) = some sr → moves addr sr := by
    intro addr sr haddr hsr
    obtain ⟨t, hnext, ⟨hregs, hmem, hunit⟩, hpair, hr7⟩ := callEtfr_completes haddr hsr
    exact ⟨t, hexec.trans hnext, movedOn_of_regsKept hregs (by decide),
      ((s.regsKept_called _).trans hregs).mono (by decide), (s.memoryKept_called _).trans hmem,
      (s.unitKeptButCause_called _).trans hunit.rest, hpair, hr7⟩
  exact ⟨fun k hk => completes (State.linkAddr_of_link hk) (State.linkSr_of_link hk),
    fun h7 => completes (State.linkAddr_of_seven h7) (State.linkSr_of_seven h7),
    fun h8 => hexec.trans (callEtfr_outOfRange _ h8)⟩

/-! ### Writing a link register (44_coprocessor.md R300) -/

/-- Link register `k` holds `l`. -/
def State.setLink (s : State) (k : Fin 7) (l : LinkReg) : State := { s with links := s.links.set k l }

section
variable (s : State) (k : Fin 7)

theorem State.setLink_links_self (l : LinkReg) : (s.setLink k l).links[k] = l := by simp [State.setLink]

theorem State.setLink_links_ne (l : LinkReg) {j : Fin 7} (h : j ≠ k) : (s.setLink k l).links[j] = s.links[j] :=
  Vector.getElem_set_ne k.isLt j.isLt fun e => h (Fin.ext e.symm)

theorem State.setLink_same : s.setLink k s.links[k] = s := by simp [State.setLink]

theorem State.setLink_setLink (l m : LinkReg) : (s.setLink k l).setLink k m = s.setLink k m := by
  simp [State.setLink]

end

section
variable {s : State} {n : BitVec 4}

theorem State.setLinkAddr_of_link {k : Fin 7} (h : n.toNat = k.val) (addr : BitVec 32) :
    s.setLinkAddr n addr = s.setLink k { s.links[k] with addr := addr } := by
  simp [State.setLinkAddr, State.setLink, h]

theorem State.setLinkSr_of_link {k : Fin 7} (h : n.toNat = k.val) (sr : Word) :
    s.setLinkSr n sr = s.setLink k { s.links[k] with sr := sr } := by
  simp [State.setLinkSr, State.setLink, h]

theorem State.setLinkAddr_of_seven (h : n = 7) (addr : BitVec 32) :
    s.setLinkAddr n addr = { s with faultMeta := { s.faultMeta with addr := addr } } := by subst h; rfl

theorem State.setLinkSr_of_seven (h : n = 7) (sr : Word) :
    s.setLinkSr n sr = { s with faultMeta := { s.faultMeta with sr := sr } } := by subst h; rfl

end

section
variable {par : BitVec 8} (u : State)

/-- A transfer into one of the seven link registers writes the halves the parameter asks for, and keeps the level. -/
theorem callEttr_link {k : Fin 7} (h : (linkIndex par).toNat = k.val) :
    callEttr par u = .next (u.setLink k
      { addr := if par.getLsbD 4 then u.regs.ah ++ u.regs.al else u.links[k].addr
        sr := if par.getLsbD 5 then u.regs.r7 else u.links[k].sr
        level := u.links[k].level }) := by
  have hlt : linkIndex par < 8#4 := show (linkIndex par).toNat < 8 by omega
  rw [callEttr, if_pos hlt]
  simp only [State.setLinkAddr_of_link h, State.setLinkSr_of_link h]
  split_ifs
  · rw [State.setLink_setLink, State.setLink_links_self]
  · rfl
  · rfl
  · exact congrArg Host.Outcome.next (u.setLink_same k).symm

/-- One into the fault metadata writes those halves of it. -/
theorem callEttr_faultMeta (h : linkIndex par = 7) :
    callEttr par u = .next { u with faultMeta :=
      { addr := if par.getLsbD 4 then u.regs.ah ++ u.regs.al else u.faultMeta.addr
        sr := if par.getLsbD 5 then u.regs.r7 else u.faultMeta.sr } } := by
  have hlt : linkIndex par < 8#4 := h ▸ by decide
  rw [callEttr, if_pos hlt]
  simp only [State.setLinkAddr_of_seven h, State.setLinkSr_of_seven h]
  split_ifs <;> rfl

/-- An index past it stops. -/
theorem callEttr_outOfRange (h : 8 ≤ (linkIndex par).toNat) : callEttr par u = .refused .linkIndexOutOfRange :=
  if_neg (Nat.not_lt.mpr h)

end

/-- Settles O54: the call leaves the link registers and the registers it reads, so its transfer is from the state before. -/
theorem transferToLink : Obligations.TransferToLink := by
  intro f s hc hsup addr sr moves
  have hexec := exec_ettr hc hsup
  have hregs := s.regsKept_called (0x1D#8 ++ f.par)
  refine ⟨fun k hk => ?link, fun h7 => ?metadata, fun h8 => hexec.trans (callEttr_outOfRange _ h8)⟩
  case link =>
    exact ⟨_, ⟨hexec.trans (callEttr_link _ hk), rfl, hregs, ⟨fun _ => rfl, rfl⟩, rfl, rfl, rfl,
      ⟨rfl, rfl, rfl, rfl, rfl, rfl⟩⟩, rfl, State.setLink_links_self _ k _, fun _ => State.setLink_links_ne _ k _⟩
  case metadata =>
    exact ⟨_, ⟨hexec.trans (callEttr_faultMeta _ h7), rfl, hregs, ⟨fun _ => rfl, rfl⟩, rfl, rfl, rfl,
      ⟨rfl, rfl, rfl, rfl, rfl, rfl⟩⟩, rfl, rfl⟩

end Sys2Proof.Machine
end

section
/-! PROOF. The checks before an operation: the privilege of the call, the vector of EXCP, the level of EXCP and of RETE. -/

namespace Sys2Proof.Machine

/-! ### Privilege (44_coprocessor.md R290, R294) -/

/-- The call word names a unit that is there and has operations to call: the exception unit, or an optional unit the platform
has. -/
def State.Callable (s : State) (w : Word) : Prop :=
  w.extractLsb' 12 4 = 1 ∨ (w.extractLsb' 12 4 ≠ 0 ∧ w.extractLsb' 12 4 ∈ s.params.optionalUnits)

/-- Such a unit is not coprocessor 0x0, and it is present. -/
theorem State.Callable.present {s : State} {w : Word} (h : s.Callable w) :
    w.extractLsb' 12 4 ≠ 0 ∧ s.unitPresent (w.extractLsb' 12 4) = true := by
  obtain h1 | ⟨h0, hu⟩ := h
  · rw [h1]
    exact ⟨by decide, rfl⟩
  · exact ⟨h0, by rw [State.unitPresent, List.contains_eq_mem, decide_eq_true hu, Bool.or_true]⟩

/-- In protected mode a call of one of the operations 0x8 to 0xF of a unit that is present is a privilege fault, whether the
unit has the operation or not. -/
theorem copCall_callable_privileged {w : Word} {s : State} (h : s.Callable w) (hp : s.protectedMode = true)
    (hop : w.getLsbD 11 = true) : copCall w s = raiseFault .privilegeViolation 2 0 s := by
  obtain ⟨(h0 : w.extractLsb' 12 4 ≠ 0x0#4), hpresent⟩ := h.present
  simp only [copCall, if_neg h0, hpresent, operation_getLsbD_three, hop, hp, Bool.not_true, Bool.false_eq_true, if_false,
    Bool.and_self, if_true]

/-- A named call is one of the exception unit; bit 3 of its operation is bit 3 of its code. -/
theorem unitCall_privileged {code : BitVec 8} {f : UnitCall} {s : State} (hc : condHolds f.cond s.flags = true)
    (hp : s.protectedMode = true) (hunit : code.extractLsb' 4 4 = 1) (hop : (code.extractLsb' 0 4).getLsbD 3 = true) :
    unitCall code f s = raiseFault .privilegeViolation 2 0 s := by
  obtain ⟨hid, hoperation, -⟩ := callWord_fields code f.par
  refine (conditional_of_holds hc).trans (copCall_callable_privileged (.inl (hid.trans hunit)) hp ?_)
  rw [← operation_getLsbD_three, hoperation, hop]

/-- A short immediate extended with ones calls operation 0xF of coprocessor 0xF. -/
theorem callable_ones (v : BitVec 8) {s : State} (h : 0xF#4 ∈ s.params.optionalUnits) :
    s.Callable (0xFF#8 ++ v) ∧ (0xFF#8 ++ v : Word).getLsbD 11 = true := by
  obtain ⟨hunit, hop, -⟩ := callWord_fields 0xFF#8 v
  refine ⟨.inr ?_, ?_⟩
  · rw [hunit]
    exact ⟨by decide, h⟩
  · rw [← operation_getLsbD_three, hop]
    rfl

/-- Settles O56: each call is the fault or the refusal of the first check that fails. -/
theorem callChecks : Obligations.CallChecks := by
  intro s traps callable
  refine ⟨fun hp hcan => ?privilege, fun f hc => ?range⟩
  case privilege =>
    have fault : ∀ {i : Instr}, exec i s = raiseFault .privilegeViolation 2 0 s → traps i :=
      fun hexec => show faults _ 2 0 s _ from hexec ▸ faults_raiseFault 2 0 hcan
    refine ⟨fun f hc => ⟨?named, fun hv => ?excp⟩, fun f hc hw hop => ?copi, ?copr, fun f hc hsh _ hu => ?short⟩
    case named =>
      have named : ∀ {code : BitVec 8}, code.extractLsb' 4 4 = 1 → (code.extractLsb' 0 4).getLsbD 3 = true →
          unitCall code f s = raiseFault .privilegeViolation 2 0 s := unitCall_privileged hc hp
      simp only [List.forall_mem_cons]
      exact ⟨fault (named (code := 0x19) rfl rfl), fault (named (code := 0x1A) rfl rfl),
        fault (named (code := 0x1B) rfl rfl), fault (named (code := 0x1C) rfl rfl), fault (named (code := 0x1D) rfl rfl),
        List.forall_mem_nil _⟩
    case excp => exact fault ((exec_excp hc).trans (callExcp_privileged _ hp hv))
    case copi => exact fault ((exec_copi hc).trans (copCall_callable_privileged hw hp hop))
    case copr =>
      rintro f w hc hsh rfl hw hop
      exact fault ((exec_copr hc hsh).trans (copCall_callable_privileged hw hp hop))
    case short =>
      have hexec := exec_copiShort hc hsh
      obtain hext | hext := ext8_zeros_or_ones f.imm8
      · exact .inl ⟨hext, hexec.trans (hext ▸ copCall_zeros f.imm8 s)⟩
      · obtain ⟨hw, hop⟩ := callable_ones f.imm8 hu
        exact .inr ⟨hext, fault (hexec.trans (hext ▸ copCall_callable_privileged hw hp hop))⟩
  case range =>
    exact ⟨fun hsup hv => (exec_excp hc).trans (callExcp_outOfRange _ hsup hv),
      fun hl hv => (exec_excp hc).trans (callExcp_insideHandler _ hv hl),
      fun hsup hl => (exec_rete hc hsup).trans (returnFromException_outsideHandler hl)⟩

end Sys2Proof.Machine
end

section
/-! PROOF. NOOP and the shift names: addition of zero to the status register, and addition with the shifter's flags. -/

namespace Sys2Proof.Machine

/-- Without carry in, the result of the addition is the sum modulo 2^16. -/
theorem addWithCarry_result (a b : Word) : (addWithCarry a b false).1 = a + b := by
  apply BitVec.eq_of_toNat_eq
  rw [addWithCarry_toNat, BitVec.toNat_add, Bool.toNat_false, Nat.add_zero]

/-! ### NOOP (45_meta_instructions.md R320) -/

/-- The status register takes back the word it reads as: in protected mode the high byte, which reads as zero, is not
written; in supervisor mode bit 13, which reads as derived, is dropped (10_state.md R38, R41, R42). -/
theorem State.writeReg_readReg_sr {s : State} (hEA : s.regs.sr.getLsbD 13 = false) :
    s.writeReg .sr (s.readReg .sr) = s := by
  have hword : (s.writeReg .sr (s.readReg .sr)).regs.sr = s.regs.sr := by
    apply BitVec.eq_of_getLsbD_eq
    intro i hi
    cases hp : s.protectedMode with
    | true =>
      obtain ⟨hhigh, hlow⟩ := State.writeReg_sr_protected (s.readReg .sr) hp
      obtain ⟨-, hkeep⟩ := keepLow_bytes s.srFull
      have hread : (s.readReg .sr).extractLsb' 0 8 = s.regs.sr.extractLsb' 0 8 := by
        rw [State.readReg_sr_protected hp, hkeep, s.srFull_low]
      obtain hbyte | hbyte := Nat.lt_or_ge i 8
      · exact getLsbD_of_extractLsb'_eq (hlow.trans hread) (Nat.zero_le i) (by omega)
      · exact getLsbD_of_extractLsb'_eq hhigh hbyte hi
    | false =>
      rw [State.writeReg_sr_supervisor _ hp, State.readReg_sr_supervisor hp, dropEA_bit, State.srFull_getLsbD]
      obtain rfl | h13 := eq_or_ne i 13
      · rw [hEA]
        exact Bool.and_false _
      · simp [h13]
  calc s.writeReg .sr (s.readReg .sr)
    _ = s.setReg .sr (s.writeReg .sr (s.readReg .sr)).regs.sr := rfl
    _ = s.setReg .sr s.regs.sr := by rw [hword]
    _ = s := rfl

/-- NOOP only moves on. -/
theorem exec_noop {s : State} (hEA : s.regs.sr.getLsbD 13 = false) : exec .noop s = .next s.advance := by
  have hw : s.writeForbidden .sr = false := Bool.and_false _
  have hback : s.advance.writeReg .sr (addWithCarry (s.advance.readReg .sr) 0#16 false).1 = s.advance := by
    rw [addWithCarry_result, BitVec.add_zero]
    exact State.writeReg_readReg_sr hEA
  calc exec .noop s
    _ = aluFinish .add true .noUpdate .sr (s.advance.readReg .sr) 0 (immShiftFlags (s.advance.readReg .sr) s) s := rfl
    _ = .next (s.advance.writeReg .sr (addWithCarry (s.advance.readReg .sr) 0#16 false).1) := by rw [aluFinish, hw]; rfl
    _ = .next s.advance := congrArg _ hback

/-! ### The shift names (45_meta_instructions.md R330 to R332) -/

/-- Where AF selects the shifter's flags, those of the operation are not used. -/
theorem AluSaved.of_fromShift {dest : Reg} {v : Word} {x : Flags} {type : ShiftType} {o : ShiftOut} {s t : State}
    (h : AluSaved .fromShift dest (v, x) type o s t) (y : Flags) : AluSaved .fromShift dest (v, y) type o s t :=
  { h with
    flags := fun hd => ⟨nofun, nofun, (h.flags hd).fromShift⟩
    statusFlags := fun hd => ⟨nofun, nofun, (h.statusFlags hd).fromShift⟩ }

/-- A shift name puts the shifted register plus `b` into the destination, with the shifter's flags. -/
theorem shiftAdd_saves {c : Cond} {sh : Shift} {dest : Reg} (src : Reg) (b : Word) {s : State}
    (hc : condHolds c s.flags = true) (hsh : sh.type ≠ .reserved) (hw : s.writeForbidden dest = false) :
    ∃ t, conditional c s (aluShifted .add true .fromShift sh dest src b s) = .next t ∧
      AluSaved .fromShift dest ((s.advance.shifted sh (s.advance.readReg src)).value + b, s.flags) sh.type
        (s.advance.shifted sh (s.advance.readReg src)) s t := by
  obtain ⟨t, hnext, hsaved⟩ := aluShifted_saves .add (sel := .fromShift) src b (by decide) hsh hw
  refine ⟨t, (conditional_of_holds hc).trans hnext, ?_⟩
  rw [← addWithCarry_result]
  exact hsaved.of_fromShift s.flags

/-- The constant of SHFT and SHFI is zero under either extension (30_encoding.md R110). -/
theorem ext8_zero : ext8 0 = 0#16 := ext8_of_lt (by decide)

/-- Settles O33: NOOP writes `sr` back as it reads, and each shift name is an addition with the shifter's flags, of zero
in SHFT and SHFI. -/
theorem noopAndShifts : Obligations.NoopAndShifts := by
  refine fun s => ⟨fun hEA => ?noop, ?shiftOne, ?shiftReg⟩
  case noop => exact ⟨s.advance, exec_noop hEA, rfl, s.onlyRegs_advance⟩
  case shiftOne =>
    rintro f o hc hsh hw rfl
    have shift := shiftAdd_saves f.reg (ext8 0) hc hsh hw
    rw [ext8_zero, BitVec.add_zero] at shift
    exact ⟨shift, shift⟩
  case shiftReg =>
    rintro f o hc hsh hw rfl
    exact shiftAdd_saves f.r2 (s.advance.readReg f.r3) hc hsh hw

end Sys2Proof.Machine
end

section
/-! PROOF. What the service point enters: the conflict of line 1, else the eligible line of the highest level, else nothing.
Then the step of each. -/

namespace Sys2Proof.Machine

/-! ### Eligible lines and the conflict (60_exceptions.md R362, R370) -/

theorem State.eligible_iff (s : State) (k : IrqLine) :
    s.eligible k = true ↔ s.pending.get k = true ∧ s.lineEnabled k = true ∧ s.level < lineLevel k := by
  rw [State.eligible, Bool.and_eq_true, Bool.and_eq_true, decide_eq_true_eq, and_assoc]

theorem State.levelFiveConflict_iff (s : State) :
    s.levelFiveConflict = true ↔ s.pending.line1 = true ∧ s.regs.sr.getLsbD 9 = true ∧ s.level = 6 := by
  rw [State.levelFiveConflict, Bool.and_eq_true, Bool.and_eq_true, decide_eq_true_eq, and_assoc]
  rfl

/-- No line has a level above 6. -/
theorem lineLevel_le_six (k : IrqLine) : lineLevel k ≤ 6 := by cases k <;> decide

/-- At level 6, where the conflict arises, no line is eligible. -/
theorem State.levelFiveConflict_of_eligible {s : State} {k : IrqLine} (h : s.eligible k = true) :
    s.levelFiveConflict = false := by
  obtain ⟨-, -, habove⟩ := (s.eligible_iff k).mp h
  refine Bool.eq_false_iff.mpr fun hconflict => ?_
  obtain ⟨-, -, hsix⟩ := s.levelFiveConflict_iff.mp hconflict
  exact absurd (hsix ▸ habove) (lineLevel_le_six k).not_gt

/-! ### The line chosen (60_exceptions.md R371, R372) -/

/-- The lines are asked in falling order of level: those before a line have a higher one. -/
theorem lines_before (k : IrqLine) : ∃ earlier later,
    [IrqLine.line1, .line2, .line3, .line4, .line5] = earlier ++ k :: later ∧
      ∀ j ∈ earlier, lineLevel k < lineLevel j := by
  cases k with
  | line1 => exact ⟨[], _, rfl, by decide⟩
  | line2 => exact ⟨[.line1], _, rfl, by decide⟩
  | line3 => exact ⟨[.line1, .line2], _, rfl, by decide⟩
  | line4 => exact ⟨[.line1, .line2, .line3], _, rfl, by decide⟩
  | line5 => exact ⟨[.line1, .line2, .line3, .line4], _, rfl, by decide⟩

/-- The eligible line of the highest level is chosen. -/
theorem State.nextInterrupt_of_highest {s : State} {k : IrqLine} (h : s.eligible k = true)
    (hhighest : ∀ j, lineLevel k < lineLevel j → s.eligible j = false) : s.nextInterrupt = some k := by
  obtain ⟨earlier, later, hlines, hhigher⟩ := lines_before k
  refine List.find?_eq_some_iff_append.mpr ⟨h, earlier, later, hlines, fun j hj => ?_⟩
  rw [hhighest j (hhigher j hj), Bool.not_false]

/-- None is chosen exactly where none is eligible. -/
theorem State.nextInterrupt_eq_none_iff (s : State) : s.nextInterrupt = none ↔ ∀ k, s.eligible k = false := by
  have hall : ∀ k, k ∈ [IrqLine.line1, .line2, .line3, .line4, .line5] := fun k => by cases k <;> decide
  rw [State.nextInterrupt, List.find?_eq_none]
  exact ⟨fun h k => Bool.eq_false_iff.mpr (h k (hall k)), fun h k _ => Bool.eq_false_iff.mp (h k)⟩

/-! ### The service point -/

theorem serviceInterrupt_of_conflict {s : State} (h : s.levelFiveConflict = true) :
    serviceInterrupt s = some (takeFault .levelFiveConflict 0 0 s.pc { s with pending := s.pending.set .line1 false }) :=
  if_pos h

theorem serviceInterrupt_of_noConflict {s : State} (h : s.levelFiveConflict = false) :
    serviceInterrupt s = s.nextInterrupt.map fun k => enterInterrupt k s := if_neg (Bool.eq_false_iff.mp h)

theorem serviceInterrupt_of_highest {s : State} {k : IrqLine} (h : s.eligible k = true)
    (hhighest : ∀ j, lineLevel k < lineLevel j → s.eligible j = false) :
    serviceInterrupt s = some (enterInterrupt k s) := by
  rw [serviceInterrupt_of_noConflict (State.levelFiveConflict_of_eligible h), State.nextInterrupt_of_highest h hhighest]
  rfl

/-- Nothing is entered exactly where no line is eligible and there is no conflict. -/
theorem serviceInterrupt_eq_none_iff (s : State) :
    serviceInterrupt s = none ↔ (∀ k, s.eligible k = false) ∧ s.levelFiveConflict = false := by
  cases hconflict : s.levelFiveConflict with
  | true => simp [serviceInterrupt_of_conflict hconflict]
  | false => simp [serviceInterrupt_of_noConflict hconflict, State.nextInterrupt_eq_none_iff]

/-! ### The step -/

/-- What the service point enters is the whole step. -/
theorem step_of_serviceInterrupt {s : State} {r : Result} (h : serviceInterrupt s.atBoundary = some r) : step s = r := by
  simp only [step, cycle, h]

/-- A waiting machine that enters nothing stays as the boundary leaves it. -/
theorem step_of_waiting {s : State} (hservice : serviceInterrupt s.atBoundary = none)
    (hwait : s.atBoundary.waiting = true) : step s = .next s.atBoundary := by
  simp only [step, cycle, hservice, hwait, if_true]

/-- A boundary leaves the program counter. -/
theorem State.atBoundary_pc (s : State) : s.atBoundary.pc = s.pc := by
  rw [State.pc, State.pc, s.atBoundary_sameCore.regs]

/-- What an entry is made from does not include the latches and the cause register. -/
theorem Entered.of_latches {vector : BitVec 8} {l : Fin 8} {k : Fin 7} {ret : BitVec 32} {p : Pending} {c : Word}
    {s t : State} (h : Entered vector l k ret { s with pending := p, cause := c } t) : Entered vector l k ret s t :=
  { h with memory := { h.memory with }, inputs := { h.inputs with } }

/-- The handler of a line whose vector can be read is entered, and its latch is consumed. -/
theorem enterInterrupt_completes {s : State} {k : IrqLine} (h : s.vectorReadable (lineVector k)) :
    ∃ t, enterInterrupt k s = .next t ∧ Entered (lineVector k) (lineLevel k) (lineLink k) s.pc s t ∧
      t.pending = s.pending.set k false ∧ t.cause = 0x1F#8 ++ lineVector k ∧ t.faultMeta = s.faultMeta := by
  obtain ⟨t, hnext⟩ := enterException_completes
    (s := { s with pending := s.pending.set k false, cause := 0x1F#8 ++ lineVector k }) (lineLevel k) (lineLink k) s.pc h
  obtain ⟨hentered, hpending, hcause, hmeta, -, -⟩ := entered_of_enterException hnext
  exact ⟨t, hnext, hentered.of_latches, hpending, hcause, hmeta⟩

/-- Settles O8: the highest eligible line is the one the service point chooses. -/
theorem interruptEntry : Obligations.InterruptEntry := by
  refine ⟨?entry, State.eligible_iff, ⟨rfl, rfl, rfl⟩, ⟨rfl, rfl, rfl⟩, ⟨rfl, rfl, rfl⟩, ⟨rfl, rfl, rfl⟩, rfl, rfl, rfl⟩
  rintro s b k rfl hpending henabled habove hhighest hread
  have heligible := (s.atBoundary.eligible_iff k).mpr ⟨hpending, henabled, habove⟩
  have henter := enterInterrupt_completes hread
  rw [s.atBoundary_pc, s.atBoundary_sameCore.faultMeta] at henter
  rw [step_of_serviceInterrupt (serviceInterrupt_of_highest heligible hhighest)]
  exact henter

/-- Settles O10: at level 6 the conflict is a first fault. -/
theorem levelFiveConflict : Obligations.LevelFiveConflict := by
  rintro s b rfl hlatch henabled hsix hread
  have hconflict := s.atBoundary.levelFiveConflict_iff.mpr ⟨hlatch, henabled, hsix⟩
  have hlevel : s.atBoundary.level ≠ 7 := by rw [hsix]; decide
  rw [step_of_serviceInterrupt (serviceInterrupt_of_conflict hconflict), s.atBoundary_pc]
  exact takeFault_first (s := { s.atBoundary with pending := s.atBoundary.pending.set .line1 false }) 0 0 s.pc hlevel hread

/-- Settles O11. -/
theorem waitHolds : Obligations.WaitHolds := by
  refine ⟨?step, fun b => ⟨serviceInterrupt_eq_none_iff b, b.levelFiveConflict_iff⟩⟩
  rintro s b rfl hwait hnone hconflict
  have hservice := (serviceInterrupt_eq_none_iff _).mpr ⟨hnone, hconflict⟩
  exact ⟨step_of_waiting hservice hwait, State.atBoundary_of_none⟩

end Sys2Proof.Machine
end

section
/-! PROOF. Hardware reset (70_reset_and_hazards.md R420, R421): what it leaves in the fields R421 gives a value, and
the invariant there. -/

namespace Sys2Proof.Machine

/-- Setting the program counter leaves the status register. -/
theorem State.setPc_sr (s : State) (a : BitVec 32) : (s.setPc a).regs.sr = s.regs.sr := by
  simp [RegFile.set_sr]

/-- Control starts where vector 0x00 points (R420). -/
theorem hardwareReset_pc (m : Memory) : (hardwareReset m).pc = m.readWord 0 ++ m.readWord 1 := State.setPc_pc _ _

/-- The status register is clear, and with it every interrupt enable bit (R420). -/
theorem hardwareReset_sr (m : Memory) : (hardwareReset m).regs.sr = 0 := State.setPc_sr _ _

/-- Reset keeps the memory image. -/
theorem hardwareReset_mem (m : Memory) : (hardwareReset m).mem = m := State.setPc_mem _ _

/-- The invariant holds after a reset with any image in canonical form: reset stores no byte, and no bit of `sr` is set. -/
theorem hardwareReset_inv {m : Memory} (h : m.wf = true) : (hardwareReset m).Inv where
  memory := (hardwareReset_mem m).symm ▸ h
  noStoredEA := by rw [hardwareReset_sr]; rfl

/-- `State.reset` is reset with empty memory, whose words are zero. -/
theorem reset_eq_hardwareReset_nil : State.reset = hardwareReset [] := rfl

/-- Settles O59. -/
theorem resetState : Obligations.ResetState := by
  refine ⟨fun m hm => ?image, reset_eq_hardwareReset_nil, ?empty⟩
  case image =>
    exact ⟨hardwareReset_pc m, hardwareReset_sr m, State.setPc_level _ _, State.setPc_waiting _ _, State.setPc_pending _ _,
      hardwareReset_mem m, hardwareReset_inv hm⟩
  case empty => exact reset_eq_hardwareReset_nil ▸ hardwareReset_inv rfl

end Sys2Proof.Machine
end
